-- ==== Sys2Proof/Word.lean ====
section
/-! DEFINITION. The word types of the KL4120: bytes, 64-byte blocks and channel numbers. -/

namespace Sys2Proof

/-- A byte of the descriptor, the report, a link message or a shadow buffer. -/
abbrev Byte := BitVec 8

/-- 64 bytes of memory, the unit of every request (00_scope.md, Terms). Byte `i` is bits `8*i+7 .. 8*i`, so a column
word read little-endian has lane `L` as bit `L` (R10). -/
abbrev Block := BitVec 512

/-- A channel, and the port that serves it: port p always serves channel p (00_scope.md, Block Overview). -/
abbrev Chan := Fin 4

/-- The four channels in ascending order. -/
abbrev allChans : List Chan := [0, 1, 2, 3]

end Sys2Proof
end

