-- ==== Sys2Proof/Syntax.lean ====
section
/-! DEFINITION. The commands of the KL4120: one constructor for each row of spec/opcode_table.json, with the data the
event brings from outside the part. -/

namespace Sys2Proof

/-- A command: one whole and indivisible step of the part (95_what_each_step_holds.md). -/
inductive Instr where
  /-- RESET_ASSERTION (R109). -/
  | resetAssertion
  /-- RESET_RELEASE (R109): `lanes` are data lanes 0 to 7 of memory channel 0 at that instant (R87). -/
  | resetRelease (lanes : BitVec 8)
  /-- SUPPLY_GOOD_RISE (R89) on channel `c`. -/
  | supplyGoodRise (c : Chan)
  /-- SUPPLY_GOOD_FALL (R102) on channel `c`. -/
  | supplyGoodFall (c : Chan)
  /-- SUPPLY_WAIT_EXPIRY (R89): the 40 ms wait timer of channel `c` expires. -/
  | supplyWaitExpiry (c : Chan)
  /-- IDENTITY_SAMPLE (R90): channel `c`'s four identity lines read `nibble`, line j giving bit j (R1). -/
  | identitySample (c : Chan) (nibble : BitVec 4)
  /-- WIDTH_CHECK_OP_COMPLETE (R92): `data` is the eight 64-lane column words a read returned; a write ignores it. -/
  | widthCheckOpComplete (c : Chan) (data : Block)
  /-- STATUS_READ_COMPLETE (R122): the serial memory's status byte. -/
  | statusReadComplete (status : Byte)
  /-- STATUS_POLL_EXPIRY (R122): the 1 ms wait after a busy status read expires. -/
  | statusPollExpiry
  /-- DESCRIPTOR_BYTE (R123): the next byte of the image. `order`: the order in which channels waiting in SELECTING
  select if this byte ends the load (R114 leaves it to the world). -/
  | descriptorByte (b : Byte) (order : List Chan)
  /-- DESCRIPTOR_CHECK (R124); `order` as above. -/
  | descriptorCheck (order : List Chan)
  /-- DESCRIPTOR_PARSE (R125). `expired`: the channels at which an expiry that the settled budget brings at once is
  taken before the load's end (R94, R115, R118); `order` as above. -/
  | descriptorParse (expired order : List Chan)
  /-- LOAD_LIMIT_EXPIRY (R132); `order` as above. -/
  | loadLimitExpiry (order : List Chan)
  /-- BUDGET_EXPIRY (R116) of channel `c`'s timer. -/
  | budgetExpiry (c : Chan)
  /-- SWEEP_OPS_COMPLETE (R27): operations of channel `c`'s current sweep block complete in hand-over order; `reads` is
  the data of its reads in that order. -/
  | sweepOpsComplete (c : Chan) (reads : List Block)
  /-- PAUSE_EXPIRY (R26). -/
  | pauseExpiry (c : Chan)
  /-- SHADOW_CLAIM (R79): the Shadow Allocator takes channel `c`'s claim. -/
  | shadowClaim (c : Chan)
  /-- ANALYSIS_COMPLETE (R64). -/
  | analysisComplete (c : Chan)
  /-- NO_RESPONSE (R101): a timed read of channel `c` got no data within 50 µs. -/
  | noResponse (c : Chan)
  /-- REQUEST_ARRIVAL (R139): a message of five header bytes, in the order received, and `data` blocks (R135, R159).
  `begun`: a GRANT standing alone in the outbound list has already begun to be sent (R136). -/
  | requestArrival (p : Chan) (header : Vector Byte 5) (data : List Block) (begun : Bool)
  /-- PORT_BLOCK_COMPLETE (R16): `data` is what a read returned; a write ignores it. `begun` as above. -/
  | portBlockComplete (p : Chan) (data : Block) (begun : Bool)
  /-- MESSAGE_SENT (R136): the head of port `p`'s outbound list has been sent. -/
  | messageSent (p : Chan)
  /-- REPORT_BLOCK_COMPLETE (R155): a report block on channel `c` has completed or been discarded. -/
  | reportBlockComplete (c : Chan)
  deriving DecidableEq, Repr

end Sys2Proof
end

