-- ==== Sys2Proof/Decode.lean ====
section
/-! DEFINITION. The words of the commands. spec/opcode_table.json gives no row any bits ("fields" is empty and no row
has "fixed"): a command of this block is an event, not a word. The inbound layouts the spec does give (request header,
descriptor, strap, identity nibbles) are decoded in Sys2Proof/Machine/Operands.lean. -/

namespace Sys2Proof

/-- The command that a word spells by the table's bits: none, since the table gives no row bits (log entry 1). -/
def decodeTableWord (_nbits _w : Nat) : Option Instr := none

end Sys2Proof
end

