-- ==== Sys2Proof/Config.lean ====
section
/-! DEFINITION. What the KL4120 fixes: capacities and constants of the spec. The spec leaves no value of the machine
open after a command; what it leaves to the world is an operand of a command (log entries 5 to 7), so there is no free
value here. -/

namespace Sys2Proof.Config

/-- The part level (00_scope.md, Terms; R130, R154). -/
def partLevel : Nat := 2
/-- Fail records a Fail Log holds (R37). -/
def logCapacity : Nat := 128
/-- Columns a fail record lists (R42). -/
def columnCapacity : Nat := 4
/-- Where the fail count saturates (R44). -/
def countMax : Nat := 255
/-- Credits granted when a channel opens (R137), the depth of the request queue (R141). -/
def creditMax : Nat := 16
/-- Where the rejected counter saturates (R140). -/
def rejectedMax : Nat := 65535
/-- Shadow entries in the pool (R77), and the largest cap (R78). -/
def shadowEntries : Nat := 32
/-- Bytes of one shadow buffer (R83). -/
def bufferBytes : Nat := 16384
/-- Attempts at one identity nibble (R90). -/
def identityAttempts : Nat := 3
/-- Passes a settle element may take (R24). -/
def settleMax : Nat := 8
/-- Kept profiles and kept overrides (R128, R130). -/
def profileCapacity : Nat := 16
def overrideCapacity : Nat := 8
/-- Blocks of the report area (R153). -/
def reportAreaBlocks : Nat := 128
/-- Width-check pattern and its complement (R92). -/
def widthPattern : BitVec 64 := 0x55555555AAAAAAAA#64
def widthComplement : BitVec 64 := 0xAAAAAAAA55555555#64
/-- Thresholds of a channel with no profile (R54). -/
def defaultT : Nat := 1
def defaultC : Nat := 8

end Sys2Proof.Config
end

