-- ==== Sys2Proof/Machine/State.lean ====
section
/-! DEFINITION. The state of the KL4120 as plain data: every block of 00_scope.md's Block Overview, and the queue of
waiting commands. INVENTORY.md lists each field with its rule and its reset value. -/

namespace Sys2Proof.Machine

/-! ### Geometry (chapter 1) -/

/-- Full width (64 lanes) or half width (32 lanes) (R3). -/
inductive Width where
  | full | half
  deriving DecidableEq, Repr

/-- What a Translation Unit holds (R4): the decoded counts and the detected width. The quantities of R5 to R7 are
computed from these. -/
structure Geometry where
  banks : Nat
  rows : Nat
  columns : Nat
  spares : Nat
  width : Width
  deriving DecidableEq, Repr

/-! ### March (chapter 2) -/

inductive MarchOp where
  | w0 | w1 | r0 | r1
  deriving DecidableEq, Repr

inductive Background where
  | solid | checker | rowStripe | columnStripe
  deriving DecidableEq, Repr

/-- A march element (R20). `ops` holds the four operation entries; those beyond `count` are kept but not applied
(R130). -/
structure Element where
  down : Bool
  ops : List MarchOp
  count : Nat
  background : Background
  repeatCode : Nat
  pauseCode : Nat
  deriving DecidableEq, Repr

/-- The sweep context of a March Engine (chapter 2, section 2.4). PAUSING is `pause = some ms`, SWEEPING is
`pause = none`. -/
structure Sweep where
  march : List Element
  bank : Nat
  element : Nat
  pass : Nat
  row : Nat
  col : Nat
  passFailed : Bool
  pause : Option Nat
  deriving DecidableEq, Repr

/-! ### Fail Log (chapter 3) and Remap Table (chapter 5) -/

inductive RecStatus where
  | pending | repairedSpare | repairedShadow | marginal | unrepairable | column
  deriving DecidableEq, Repr

/-- A fail record (R38). `target` is a bank spare index or a shadow entry, as the status says. -/
structure FailRecord where
  bank : Nat
  row : Nat
  columns : List Nat
  many : Bool
  lanes : BitVec 64
  count : Nat
  firstElement : Nat
  retention : Bool
  status : RecStatus
  target : Option Nat
  deriving DecidableEq, Repr

/-- A Fail Log (R37): the records in log order, and the failed-spare sets as (bank, spare index) pairs, each at most
once. -/
structure FailLog where
  records : List FailRecord
  failedSpares : List (Nat × Nat)
  deriving DecidableEq, Repr

/-- The target of a remap entry (R71). -/
inductive Target where
  | spare (k : Nat)
  | shadow (entry : Nat)
  deriving DecidableEq, Repr

structure RemapEntry where
  bank : Nat
  row : Nat
  target : Target
  deriving DecidableEq, Repr

/-! ### Repair Analyser (chapter 4) -/

/-- The states of R52 other than IDLE. -/
inductive AnalysisPhase where
  | checking | primary | claiming | marginal
  deriving DecidableEq, Repr

/-- The analysis context (R52). `candidates` are the rows of the running pass still to be treated, the one being
treated first; `given` are the bank spares this analysis has given out. -/
structure Analysis where
  phase : AnalysisPhase
  bank : Nat
  complete : Bool
  t : Nat
  c : Nat
  repairMarginal : Bool
  cap : Nat
  candidates : List Nat
  given : List Nat
  deriving DecidableEq, Repr

/-! ### Downstream Sequencer -/

/-- Who handed an operation over. `live` is false once its result is to be discarded (R31, R92) or its report write has
been abandoned (R156). -/
inductive OpOwner where
  | widthCheck (live : Bool)
  | sweep (live : Bool) (op : MarchOp)
  | port
  | report (live : Bool)
  deriving DecidableEq, Repr

/-- One block operation at a Downstream Sequencer: a write when `write` holds data, else a read. `layout` says how the
block lies in column words (R10); the width check uses eight 64-lane words (R92). -/
structure DsOp where
  owner : OpOwner
  write : Option Block
  bank : Nat
  row : Nat
  col : Nat
  layout : Width
  deriving DecidableEq, Repr

/-- A Downstream Sequencer. `written` is the MODEL's own record of what the part is known to have left in the channel's
DRAM, by physical byte address (R35); a byte not listed is undefined. No command reads it. -/
structure Downstream where
  ops : List DsOp
  refreshWithheld : Bool
  select : Nat
  written : List Host.Cell
  deriving DecidableEq, Repr

/-! ### Channel Sequencer (chapters 6 and 7) -/

inductive SeqState where
  | powering | identifying | selecting | queued | testing | analysing | done | opened | draining | closing | failed
  | absent
  deriving DecidableEq, Repr

/-- End results (R68, R69); `unset` is 'none'. -/
inductive EndResult where
  | unset | clean | repaired | partly | untested | degraded | failed
  deriving DecidableEq, Repr

/-- Reasons (R106); `unset` is 'none'. -/
inductive Reason where
  | unset | repair | supplyLost | noResponse | identityUnstable | width | geometry | notReady
  deriving DecidableEq, Repr

/-- The causes of the repair failure note (R65); the note is clear when all are false. -/
structure Causes where
  unrepairable : Bool
  column : Bool
  overflow : Bool
  deriving DecidableEq, Repr

/-- What IDENTIFYING is doing: the identity read (R90) or the width check (R92, R93). -/
inductive Ident where
  | idle
  | reading (select attempt : Nat) (first : Option (BitVec 4)) (nibbles : List (BitVec 4))
  | widthCheck (op : Nat) (firstRead : Block)
  deriving DecidableEq, Repr

/-- A budget timer (R115); a RUNNING timer has its limit in ms. -/
inductive Timer where
  | stopped | running (limit : Nat) | expired | unlimited
  deriving DecidableEq, Repr

/-- A kept profile (R130). -/
structure Profile where
  identity : BitVec 16
  minLevel : Nat
  tCode : Nat
  cCode : Nat
  repairMarginal : Bool
  elements : List Element
  deriving DecidableEq, Repr

/-- A Channel Sequencer (R88), with its supply wait timer (R89), its identity read or width check and its budget timer
(R115). -/
structure Sequencer where
  state : SeqState
  supplyWait : Bool
  ident : Ident
  identityRead : Option (BitVec 16)
  effective : Option (BitVec 16)
  aliasUsed : Bool
  width : Option Width
  profile : Option (Nat × Profile)
  nextBank : Nat
  entered : List Nat
  fullySwept : List Nat
  causes : Causes
  budgetExpired : Bool
  supplyUnconfirmed : Bool
  result : EndResult
  reason : Reason
  timer : Timer
  deriving DecidableEq, Repr

/-! ### Request Port (chapter 9) -/

/-- An accepted request (R141). -/
structure Request where
  isWrite : Bool
  tag : Nat
  lenCode : Nat
  addr : Nat
  data : List Block
  deriving DecidableEq, Repr

/-- Progress of the request in service (R11, R16): one slot a block, none while the block is at memory. `formed`: the
response has been formed (R143, R146). -/
structure Service where
  slots : List (Option Block)
  remapped : Bool
  shadow : Bool
  outside : Bool
  formed : Bool
  deriving DecidableEq, Repr

/-- The fields of a response's status byte (R144). -/
structure Status where
  phase : Nat
  rejected : Bool
  range : Bool
  remapped : Bool
  shadow : Bool
  error : Bool
  deriving DecidableEq, Repr

/-- Messages to the controller (R136). -/
inductive Message where
  | grant (n : Nat)
  | restore (n : Nat)
  | response (tag lenCode : Nat) (status : Status) (data : List Block)
  deriving DecidableEq, Repr

/-- The escape detector (R147). -/
inductive Detector where
  | idle | step1 | step2 | step3 | step4
  deriving DecidableEq, Repr

structure Port where
  credit : Nat
  queue : List Request
  service : Option Service
  outbound : List Message
  headBegun : Bool
  rejected : Bool
  range : Bool
  rejectedCount : Nat
  detector : Detector
  deriving DecidableEq, Repr

/-! ### A channel's blocks -/

/-- The per-channel blocks of one channel, and its supply-good input. -/
structure Channel where
  supplyGood : Bool
  seq : Sequencer
  geometry : Option Geometry
  remap : List RemapEntry
  log : FailLog
  march : Option Sweep
  analyser : Option Analysis
  ds : Downstream
  port : Port
  deriving DecidableEq, Repr

/-! ### Shared blocks -/

/-- The Test Slot Arbiter (R110). -/
structure Arbiter where
  slots : Nat
  holders : List Chan
  waitQueue : List Chan
  deriving DecidableEq, Repr

/-- The Shadow Allocator (R77, R78) and the Shadow Row Store (R83). Byte `o` of buffer `s` is address
`s * 16384 + o` of `store`. -/
structure Shadow where
  holders : Vector (Option Chan) 32
  cap : Nat
  store : List Host.Cell
  deriving DecidableEq, Repr

inductive LoaderState where
  | idle | loading | valid | truncated | absent | bad | late
  deriving DecidableEq, Repr

/-- The stage of a load (R122 to R125, R132). -/
inductive LoadStage where
  | statusRead | statusWait | imageRead | check | parse
  deriving DecidableEq, Repr

/-- A kept override (R128). -/
inductive Override where
  | aliasId (c : Chan) (identity : BitVec 16)
  | skipTest (c : Chan)
  deriving DecidableEq, Repr

/-- The loader's kept results (R121). `capExt` is already clamped to 32 (R127). -/
structure Kept where
  revision : BitVec 16
  reportChannel : Chan
  reportOffset : Nat
  openFailed : Bool
  profiles : List Profile
  overrides : List Override
  budgetExt : Option Nat
  capExt : Option Nat
  deriving DecidableEq, Repr

/-- The Descriptor Loader (R121). `selected` is the memory select wire and `sent` what the loader has sent on the data-out
wire since it last selected the memory (R122). -/
structure Loader where
  state : LoaderState
  stage : Option LoadStage
  limitTimer : Bool
  selected : Bool
  sent : List Byte
  buffer : List Byte
  kept : Kept
  deriving DecidableEq, Repr

/-- What has become of the report block the writer has handed over (R17, R86, R155): waiting for the request in service to
leave, at the Downstream Sequencer, handed to the Shadow Row Store and not yet served, or settled (in its shadow buffer, or
discarded). -/
inductive BlockAt where
  | waiting | memory | store (entry col : Nat) | settled
  deriving DecidableEq, Repr

/-- A report write in progress (R152 to R155): placement, the assembled blocks, the index of the current one, and the
channels that were DONE when the write started. -/
structure Write where
  chan : Chan
  base : Nat
  blocks : List Block
  index : Nat
  blockAt : BlockAt
  startSet : List Chan
  deriving DecidableEq, Repr

/-- The Report Writer (R152): IDLE when `write` is none. -/
structure Writer where
  write : Option Write
  pendingPublish : Bool
  deriving DecidableEq, Repr

/-- The Board Line Unit (R157, R158); the strap word it latches is `State.strap`. -/
structure Board where
  ready : Bool
  readyRaised : Bool
  fault : Bool
  deriving DecidableEq, Repr

/-- The state of the part. `pending` is the model's queue of commands, first in, first out. -/
structure State where
  inReset : Bool
  strap : BitVec 8
  chans : Vector Channel 4
  arbiter : Arbiter
  shadow : Shadow
  loader : Loader
  writer : Writer
  board : Board
  pending : List Instr
  deriving DecidableEq, Repr

/-! ### Reset values -/

/-- Sequencer fields after reset assertion (R88, R69, R89, R116). -/
def Sequencer.reset : Sequencer :=
  { state := .powering, supplyWait := false, ident := .idle, identityRead := none, effective := none,
    aliasUsed := false, width := none, profile := none, nextBank := 0, entered := [], fullySwept := [],
    causes := ⟨false, false, false⟩, budgetExpired := false, supplyUnconfirmed := false,
    result := .unset, reason := .unset, timer := .stopped }

/-- A Request Port after reset assertion (R150). -/
def Port.reset : Port :=
  { credit := 0, queue := [], service := none, outbound := [], headBegun := false, rejected := false, range := false,
    rejectedCount := 0, detector := .idle }

/-- A Downstream Sequencer after reset assertion (R32, R109); DESIGN CHOICE: select lines 0 (log entry 13). -/
def Downstream.reset : Downstream := { ops := [], refreshWithheld := false, select := 0, written := [] }

def FailLog.empty : FailLog := { records := [], failedSpares := [] }

/-- The blocks of a channel after reset assertion, its supply-good input as it stands (R4, R32, R37, R52, R71, R88,
R150). -/
def Channel.reset (supplyGood : Bool) : Channel :=
  { supplyGood := supplyGood, seq := Sequencer.reset, geometry := none, remap := [], log := FailLog.empty, march := none,
    analyser := none, ds := Downstream.reset, port := Port.reset }

/-- The Shadow Allocator after reset assertion: all 32 entries free, cap 32 (R77, R78, R82). DESIGN CHOICE: the
undefined buffers read 0 (log entry 10). -/
def Shadow.reset : Shadow := { holders := Vector.replicate 32 none, cap := Config.shadowEntries, store := [] }

/-- No kept result (R121): the value at reset assertion and in ABSENT, BAD and LATE. -/
def Kept.nothing : Kept :=
  { revision := 0, reportChannel := 0, reportOffset := 0, openFailed := false, profiles := [], overrides := [],
    budgetExt := none, capExt := none }

def Loader.reset : Loader :=
  { state := .idle, stage := none, limitTimer := false, selected := false, sent := [], buffer := [],
    kept := Kept.nothing }

/-- The part right after reset assertion, held until reset release (R109). DESIGN CHOICE: strap word 0, slot count 0 and
supply-good inputs inactive, none of which the spec states (log entries 11, 12, 14). -/
def State.reset : State :=
  { inReset := true, strap := 0, chans := Vector.replicate 4 (Channel.reset false),
    arbiter := { slots := 0, holders := [], waitQueue := [] }, shadow := Shadow.reset, loader := Loader.reset,
    writer := { write := none, pendingPublish := false },
    board := { ready := false, readyRaised := false, fault := false }, pending := [] }

/-! ### Why a step stops -/

/-- Reasons for a fault: none. The spec stops the part at no command; bad input has a stated effect (R106, R130, R139).
Safe: nothing is cut short. -/
inductive Fault where
  deriving DecidableEq, Repr

/-- Reasons for a refusal. -/
inductive Refusal where
  /-- Raised by an arm of exec whose command has no meaning yet; no arm raises it. Safe. -/
  | notModelled (mnemonic : String)
  deriving DecidableEq, Repr

end Sys2Proof.Machine
end

