-- ==== Sys2Proof/Machine/Ops.lean ====
section
/-! DEFINITION. The named operations over the state: one accessor and one updater a block, the strap fields (R87), byte
order inside a block (R10), and the two byte memories (the Shadow Row Store and the record of DRAM writes). -/

namespace Sys2Proof.Machine

/-! ### Channels and their blocks -/

def State.chan (s : State) (c : Chan) : Channel := s.chans[c.val]

def State.updChan (s : State) (c : Chan) (f : Channel → Channel) : State :=
  { s with chans := s.chans.set c.val (f (s.chan c)) }

def State.updSeq (s : State) (c : Chan) (f : Sequencer → Sequencer) : State :=
  s.updChan c fun ch => { ch with seq := f ch.seq }

def State.updPort (s : State) (c : Chan) (f : Port → Port) : State :=
  s.updChan c fun ch => { ch with port := f ch.port }

def State.updDs (s : State) (c : Chan) (f : Downstream → Downstream) : State :=
  s.updChan c fun ch => { ch with ds := f ch.ds }

def State.seqState (s : State) (c : Chan) : SeqState := (s.chan c).seq.state

def State.setSeqState (s : State) (c : Chan) (x : SeqState) : State :=
  s.updSeq c fun q => { q with state := x }

def State.setAnalyser (s : State) (c : Chan) (a : Option Analysis) : State :=
  s.updChan c fun ch => { ch with analyser := a }

def State.setMarch (s : State) (c : Chan) (m : Option Sweep) : State :=
  s.updChan c fun ch => { ch with march := m }

def State.setLog (s : State) (c : Chan) (l : FailLog) : State :=
  s.updChan c fun ch => { ch with log := l }

def State.setRemap (s : State) (c : Chan) (r : List RemapEntry) : State :=
  s.updChan c fun ch => { ch with remap := r }

def State.setGeometry (s : State) (c : Chan) (g : Option Geometry) : State :=
  s.updChan c fun ch => { ch with geometry := g }

/-! ### Strap fields (R87) -/

/-- Slot code, bits 1:0. -/
def strapSlotCode (w : BitVec 8) : Nat := (w.extractLsb' 0 2).toNat
/-- Descriptor present, bit 2. -/
def strapDescriptor (w : BitVec 8) : Bool := w.getLsbD 2
/-- Budget code, bits 4:3. -/
def strapBudgetCode (w : BitVec 8) : Nat := (w.extractLsb' 3 2).toNat
/-- Publish report, bit 5. -/
def strapPublish (w : BitVec 8) : Bool := w.getLsbD 5
/-- Honour pauses, bit 6. -/
def strapPauses (w : BitVec 8) : Bool := w.getLsbD 6
/-- Escape detection, bit 7. -/
def strapEscapes (w : BitVec 8) : Bool := w.getLsbD 7

/-- The slot count S of a slot code (R87, R110). -/
def slotCount (code : Nat) : Nat :=
  match code with
  | 3 => 2
  | 2 => 4
  | 1 => 1
  | _ => 0

/-- The strap budget in ms; none is no budget (R87, R115). -/
def strapBudget (w : BitVec 8) : Option Nat :=
  match strapBudgetCode w with
  | 3 => some 800
  | 2 => some 400
  | 1 => some 1600
  | _ => none

/-! ### Bytes of a block (R10) -/

/-- Byte `i` of a block, byte 0 the lowest. -/
def blockByte (b : Block) (i : Nat) : Byte := b.extractLsb' (8 * i) 8

/-- A block of the given bytes, byte 0 first; missing bytes are 0. -/
def blockOfBytes (l : List Byte) : Block :=
  BitVec.ofNat 512 (l.foldr (fun b acc => b.toNat + 256 * acc) 0)

/-- Offsets of the bytes of a block. -/
abbrev blockOffsets : List Nat := List.range 64

/-! ### Byte memories: lists of cells, addresses strictly rising -/

/-- The listed byte at an address. -/
def memGet : List Host.Cell → Nat → Option Byte
  | [], _ => none
  | (k, v) :: m, a => if k = a then some v else memGet m a

/-- List a byte at an address, keeping the addresses rising. -/
def memPut (a : Nat) (v : Byte) : List Host.Cell → List Host.Cell
  | [] => [(a, v)]
  | (k, w) :: m =>
    if a < k then (a, v) :: (k, w) :: m else if a = k then (a, v) :: m else (k, w) :: memPut a v m

/-- Take an address off the list. -/
def memErase (a : Nat) (m : List Host.Cell) : List Host.Cell := m.filter fun x => x.1 != a

/-- Addresses strictly rise. -/
abbrev memSorted (m : List Host.Cell) : Prop := m.Pairwise fun x y => x.1 < y.1

/-! ### The Shadow Row Store (R83 to R85): an unlisted byte reads 0 -/

/-- Address in the store of byte `o` of buffer `entry`. -/
def shadowAddr (entry o : Nat) : Nat := entry * Config.bufferBytes + o

def shadowRead (m : List Host.Cell) (a : Nat) : Byte := (memGet m a).getD 0

/-- Write one byte, keeping the canonical form: a 0 is not listed. -/
def shadowWrite (a : Nat) (v : Byte) (m : List Host.Cell) : List Host.Cell :=
  if v = 0 then memErase a m else memPut a v m

/-- The 64 bytes at block column `col` of buffer `entry` (R84). -/
def shadowReadBlock (m : List Host.Cell) (entry col : Nat) : Block :=
  blockOfBytes (blockOffsets.map fun i => shadowRead m (shadowAddr entry (col * 64 + i)))

/-- Replace those 64 bytes (R85). -/
def shadowWriteBlock (m : List Host.Cell) (entry col : Nat) (data : Block) : List Host.Cell :=
  blockOffsets.foldl (fun m i => shadowWrite (shadowAddr entry (col * 64 + i)) (blockByte data i) m) m

/-- Fill buffer `entry` with zeros over all 16384 bytes (R79). -/
def shadowZeroFill (m : List Host.Cell) (entry : Nat) : List Host.Cell :=
  m.filter fun x => x.1 < shadowAddr entry 0 || shadowAddr (entry + 1) 0 ≤ x.1

/-- The canonical form of the store: addresses rise, and no listed byte is the 0 an unlisted one reads as. -/
abbrev Memory.wf (m : List Host.Cell) : Prop := memSorted m ∧ ∀ x ∈ m, x.2 ≠ 0

/-! ### The record of DRAM writes: an unlisted byte is undefined -/

/-- Physical byte address of byte `i` of a block (R10): bank, row, column, byte of the column word. A half-width block
has sixteen columns of 4 bytes, a full-width one eight of 8; a column word is 8 addresses wide in both. -/
def dramAddr (layout : Width) (bank row col i : Nat) : Nat :=
  match layout with
  | .full => ((bank * 65536 + row) * 2048 + (col * 8 + i / 8)) * 8 + i % 8
  | .half => ((bank * 65536 + row) * 2048 + (col * 16 + i / 4)) * 8 + i % 4

/-- A completed write leaves its 64 bytes in memory (R35). -/
def dramLand (op : DsOp) (data : Block) (m : List Host.Cell) : List Host.Cell :=
  blockOffsets.foldl (fun m i => memPut (dramAddr op.layout op.bank op.row op.col i) (blockByte data i) m) m

/-- An abandoned write may or may not have reached memory (R32, R101): its 64 bytes are no longer known. -/
def dramDoubt (op : DsOp) (m : List Host.Cell) : List Host.Cell :=
  match op.write with
  | none => m
  | some _ => blockOffsets.foldl (fun m i => memErase (dramAddr op.layout op.bank op.row op.col i) m) m

/-- The byte the part is known to have left at byte `i` of a block of the channel's DRAM. A retest keeps the record, and a
sweep adds to it: in a bank that a retest leaves truncated, a block that no completed write of the new sweep reached goes on
being listed with its earlier bytes (R36), where R35 calls its value undefined; DESIGN CHOICE (log entry 24). -/
def Downstream.known (d : Downstream) (layout : Width) (bank row col i : Nat) : Option Byte :=
  memGet d.written (dramAddr layout bank row col i)

/-! ### The Downstream Sequencer's stream -/

/-- Hand over one operation: it joins the end of the stream. -/
def State.handOver (s : State) (c : Chan) (op : DsOp) : State :=
  s.updDs c fun d => { d with ops := d.ops ++ [op] }

/-- Take the completed operation at the head off the stream; a write has reached memory. -/
def State.completeHead (s : State) (c : Chan) : State :=
  s.updDs c fun d =>
    match d.ops with
    | [] => d
    | op :: rest =>
      { d with ops := rest, written := match op.write with
                                       | some data => dramLand op data d.written
                                       | none => d.written }

/-- Abandon the operations that `p` picks: they leave the stream and their writes are in doubt (R101, R104, R156). -/
def State.dropOps (s : State) (c : Chan) (p : DsOp → Bool) : State :=
  s.updDs c fun d =>
    { d with ops := d.ops.filter fun op => !p op,
             written := (d.ops.filter p).foldl (fun m op => dramDoubt op m) d.written }

/-- An operation whose result is to be discarded: a sweep's after abandonment (R31). -/
def DsOp.discardSweep (op : DsOp) : DsOp :=
  match op.owner with
  | .sweep _ m => { op with owner := .sweep false m }
  | _ => op

/-- The same for a stopped width check (R92). -/
def DsOp.discardWidth (op : DsOp) : DsOp :=
  match op.owner with
  | .widthCheck _ => { op with owner := .widthCheck false }
  | _ => op

/-- The same for an abandoned report write (R156). -/
def DsOp.discardReport (op : DsOp) : DsOp :=
  match op.owner with
  | .report _ => { op with owner := .report false }
  | _ => op

def DsOp.isReport (op : DsOp) : Bool :=
  match op.owner with
  | .report _ => true
  | _ => false

/-- A live sweep operation. -/
def DsOp.isLiveSweep (op : DsOp) : Bool :=
  match op.owner with
  | .sweep true _ => true
  | _ => false

def State.mapOps (s : State) (c : Chan) (f : DsOp → DsOp) : State :=
  s.updDs c fun d => { d with ops := d.ops.map f }

end Sys2Proof.Machine
end

