-- ==== Sys2Proof/Machine/Operands.lean ====
section
/-! DEFINITION. The inbound layouts (chapter 11, R159): the geometry identity (R1, R2), the request header (R135), the
escape words (R147) and the descriptor's fields and march elements. -/

namespace Sys2Proof.Machine

/-! ### Geometry identity (R1, R2) -/

/-- The identity of the four nibbles in select order: the nibble at select 0 is bits 15 to 12 (R1). -/
def assembleIdentity (n0 n1 n2 n3 : BitVec 4) : BitVec 16 := n0 ++ n1 ++ n2 ++ n3

def bankCount (code : Nat) : Option Nat :=
  match code with
  | 0 => some 4
  | 1 => some 8
  | 2 => some 16
  | _ => none

def rowCount (code : Nat) : Option Nat :=
  match code with
  | 0 => some 8192
  | 1 => some 16384
  | 2 => some 32768
  | 3 => some 65536
  | _ => none

def columnCount (code : Nat) : Option Nat :=
  match code with
  | 0 => some 512
  | 1 => some 1024
  | 2 => some 2048
  | _ => none

def spareCount (code : Nat) : Option Nat := if code ≤ 8 then some (4 * code) else none

/-- The geometry of an identity at a width; none when the identity is undecodable (R2). -/
def decodeIdentity (v : BitVec 16) (w : Width) : Option Geometry :=
  match bankCount (v.extractLsb' 12 4).toNat, rowCount (v.extractLsb' 8 4).toNat,
      columnCount (v.extractLsb' 4 4).toNat, spareCount (v.extractLsb' 0 4).toNat with
  | some b, some r, some c, some k => some { banks := b, rows := r, columns := c, spares := k, width := w }
  | _, _, _, _ => none

/-- The unpopulated pattern (R2). -/
def unpopulated : BitVec 16 := 0xFFFF#16

/-! ### Request header (R135, section 11.3) -/

/-- The 40 header bits of the five bytes, the byte received first being bits 7 to 0 (R159). -/
def headerBits (b : Vector Byte 5) : BitVec 40 := b[4] ++ b[3] ++ b[2] ++ b[1] ++ b[0]

def headerKind (h : BitVec 40) : Nat := (h.extractLsb' 0 4).toNat
def headerTag (h : BitVec 40) : Nat := (h.extractLsb' 4 5).toNat
def headerLenCode (h : BitVec 40) : Nat := (h.extractLsb' 9 2).toNat
def headerAddr (h : BitVec 40) : Nat := (h.extractLsb' 11 28).toNat

/-- The header bits hold an odd number of ones. -/
def headerOdd (h : BitVec 40) : Bool := (List.range 40).foldl (fun acc i => acc ^^ h.getLsbD i) false

/-- The request of a sound message; none for a parity error or an invalid kind (R135). -/
def parseRequest (h : BitVec 40) (data : List Block) : Option Request :=
  if headerOdd h && ((headerKind h == 0 && data.length == 0) ||
      (headerKind h == 1 && data.length == headerLenCode h + 1)) then
    some { isWrite := headerKind h == 1, tag := headerTag h, lenCode := headerLenCode h, addr := headerAddr h,
           data := data }
  else none

/-- The request of a message as it is received (R135, R159). -/
def parseMessage (header : Vector Byte 5) (data : List Block) : Option Request := parseRequest (headerBits header) data

/-- The number of blocks a request covers: length code + 1 (R135). -/
def Request.blocks (r : Request) : Nat := r.lenCode + 1

/-! ### Escape words (R147, R148) -/

/-- The first 8 bytes of a write's data as a little-endian 64-bit word. -/
def escapeWord (r : Request) : BitVec 64 := ((r.data.head?).getD 0).extractLsb' 0 64

/-- The upper 48 bits are all ones. -/
def escapeMarked (w : BitVec 64) : Bool := w.extractLsb' 16 48 == BitVec.allOnes 48

/-- The step word of number `k`. -/
def isStepWord (w : BitVec 64) (k : Nat) : Bool := escapeMarked w && (w.extractLsb' 0 16).toNat == k

/-- Escape code and operand: byte 0 and byte 1. -/
def escapeCode (w : BitVec 64) : Nat := (w.extractLsb' 0 8).toNat
def escapeOperand (w : BitVec 64) : Nat := (w.extractLsb' 8 8).toNat

/-! ### Descriptor fields (section 11.4) -/

/-- Byte `i` of an image; beyond the end, 0. -/
def u8 (image : List Byte) (i : Nat) : Nat := (image.getD i 0).toNat

/-- The little-endian 16-bit field at byte `i` (R159). -/
def u16 (image : List Byte) (i : Nat) : Nat := u8 image i + 256 * u8 image (i + 1)

def marchOpOfCode (code : Nat) : MarchOp :=
  match code with
  | 0 => .w0
  | 1 => .w1
  | 2 => .r0
  | _ => .r1

def backgroundOfCode (code : Nat) : Background :=
  match code with
  | 0 => .solid
  | 1 => .checker
  | 2 => .rowStripe
  | _ => .columnStripe

/-- The direction code of an element, 0 to 3 (R130 drops a profile with one above 1). -/
def elementDirection (image : List Byte) (at_ : Nat) : Nat := u8 image (at_ + 1) / 8 % 4

def elementOpCount (image : List Byte) (at_ : Nat) : Nat := u8 image (at_ + 1) % 8

/-- The march element at byte `at_` (section 11.4, March element). -/
def decodeElement (image : List Byte) (at_ : Nat) : Element :=
  { down := elementDirection image at_ == 1,
    ops := [u8 image at_ % 4, u8 image at_ / 4 % 4, u8 image at_ / 16 % 4, u8 image at_ / 64 % 4].map marchOpOfCode,
    count := elementOpCount image at_,
    background := backgroundOfCode (u8 image (at_ + 1) / 32 % 4),
    repeatCode := u8 image (at_ + 2) % 16,
    pauseCode := u8 image (at_ + 2) / 16 }

end Sys2Proof.Machine
end

