-- ==== Sys2Proof/Machine/Flags.lean ====
section
/-! DEFINITION. The outbound layouts of the link (R160, section 11.3), the pending flags (R140, R145), and the two board
lines (R157, R158). -/

namespace Sys2Proof.Machine

/-! ### Status byte and messages -/

/-- A Bool as bit `i` of a byte. -/
def bitAt (b : Bool) (i : Nat) : Nat := if b then 2 ^ i else 0

/-- The response status byte (section 11.3). -/
def Status.byte (st : Status) : Byte :=
  BitVec.ofNat 8 (st.phase % 4 + bitAt st.rejected 2 + bitAt st.range 3 + bitAt st.remapped 4 + bitAt st.shadow 5
    + bitAt st.error 6)

/-- The bytes of a message to the controller (section 11.3). The count byte of a GRANT holds n modulo 256: R136 gives n as 1
to 16; DESIGN CHOICE (log entry 23). -/
def Message.bytes : Message → List Byte
  | .grant n => [1#8, BitVec.ofNat 8 n]
  | .restore n => [2#8, BitVec.ofNat 8 n]
  | .response tag lenCode st data =>
    [3#8, BitVec.ofNat 8 (tag % 32 + 32 * (lenCode % 4)), st.byte] ++
      data.flatMap fun b => blockOffsets.map (blockByte b)

def Message.isResponse : Message → Bool
  | .response _ _ _ _ => true
  | _ => false

/-- The phase of a response formed in a channel state (R144). -/
def phaseOf (x : SeqState) : Nat :=
  match x with
  | .opened => 1
  | .draining => 2
  | .closing => 3
  | _ => 0

/-! ### Pending flags and the rejected counter -/

/-- A discard sets the rejected flag and counts, saturating (R140). -/
def Port.countDiscard (p : Port) : Port :=
  { p with rejected := true, rejectedCount := min (p.rejectedCount + 1) Config.rejectedMax }

/-- Forming a response clears both pending flags and appends the response (R143, R145). -/
def Port.sendResponse (p : Port) (m : Message) : Port :=
  { p with outbound := p.outbound ++ [m], rejected := false, range := false }

/-! ### Board lines -/

/-- A result that makes FAULT active when a channel takes it (R69, R158). -/
def EndResult.isFault : EndResult → Bool
  | .partly | .untested | .degraded | .failed => true
  | .unset | .clean | .repaired => false

/-- A channel takes a result: it is held with its reason, and a fault result makes FAULT active (R69, R98, R158). -/
def State.takeResult (s : State) (c : Chan) (r : EndResult) (why : Reason) : State :=
  let s1 := s.updSeq c fun q => { q with result := r, reason := why }
  { s1 with board := { s1.board with fault := s1.board.fault || r.isFault } }

/-- OPEN, FAILED or ABSENT: what READY counts as settled (R157). -/
def SeqState.settled : SeqState → Bool
  | .opened | .failed | .absent => true
  | _ => false

/-- Every channel is settled at once. -/
def State.allSettled (s : State) : Bool := allChans.all fun c => (s.seqState c).settled

/-- READY and its note become active when every channel is settled at once, and stay so (R157). -/
def State.raiseReady (s : State) : State :=
  if s.allSettled then { s with board := { s.board with ready := true, readyRaised := true } } else s

/-- Fault acknowledge makes FAULT inactive (R158). -/
def State.acknowledgeFault (s : State) : State := { s with board := { s.board with fault := false } }

end Sys2Proof.Machine
end

