-- ==== Sys2Proof/Machine/Translate.lean ====
section
/-! DEFINITION. The Translation Unit (chapter 1): derived geometry, decomposition, the range test, the Remap Table lookup
and the destination of a block. -/

namespace Sys2Proof.Machine

/-! ### Derived quantities (R3, R5 to R7) -/

def Width.wordBytes : Width → Nat
  | .full => 8
  | .half => 4

def Width.columnsPerBlock : Width → Nat
  | .full => 8
  | .half => 16

def Width.lanes : Width → Nat
  | .full => 64
  | .half => 32

/-- columns × word bytes (R5). -/
def Geometry.rowBytes (g : Geometry) : Nat := g.columns * g.width.wordBytes
/-- row bytes / 64 (R5). -/
def Geometry.blocksPerRow (g : Geometry) : Nat := g.rowBytes / 64
/-- rows − spares (R6). -/
def Geometry.visibleRows (g : Geometry) : Nat := g.rows - g.spares
/-- The physical row of bank spare `k` (R6). -/
def Geometry.spareRow (g : Geometry) (k : Nat) : Nat := g.rows - g.spares + k
/-- banks × visible rows × blocks per row (R7). -/
def Geometry.visibleBlocks (g : Geometry) : Nat := g.banks * g.visibleRows * g.blocksPerRow
/-- The last visible block (R7). -/
def Geometry.escapeBlock (g : Geometry) : Nat := g.visibleBlocks - 1

/-! ### Decomposition (R8) -/

def Geometry.blockCol (g : Geometry) (a : Nat) : Nat := a % g.blocksPerRow
def Geometry.bankOf (g : Geometry) (a : Nat) : Nat := a / g.blocksPerRow % g.banks
def Geometry.rowOf (g : Geometry) (a : Nat) : Nat := a / g.blocksPerRow / g.banks

/-! ### Destination (R9, R11, R13 to R15) -/

/-- The four outcomes of R11, with the destination of each. -/
inductive Dest where
  | direct (bank row col : Nat)
  | spare (bank row col : Nat)
  | shadow (entry col : Nat)
  | outside
  deriving DecidableEq, Repr

/-- The entry of a row, if the row is substituted (R74). -/
def remapLookup (t : List RemapEntry) (bank row : Nat) : Option Target :=
  (t.find? fun e => e.bank == bank && e.row == row).map RemapEntry.target

/-- The outcome of one block (R11). -/
def Geometry.dest (g : Geometry) (t : List RemapEntry) (a : Nat) : Dest :=
  if a < g.visibleBlocks then
    match remapLookup t (g.bankOf a) (g.rowOf a) with
    | none => .direct (g.bankOf a) (g.rowOf a) (g.blockCol a)
    | some (.spare k) => .spare (g.bankOf a) (g.spareRow k) (g.blockCol a)
    | some (.shadow e) => .shadow e (g.blockCol a)
  else .outside

/-- The visible blocks of a channel; 0 without a geometry (R4). -/
def Channel.visibleBlocks (ch : Channel) : Nat := (ch.geometry.map Geometry.visibleBlocks).getD 0

/-- The escape block of a channel; none without a geometry (R4). -/
def Channel.escapeBlock (ch : Channel) : Option Nat := ch.geometry.map Geometry.escapeBlock

/-- The outcome of one block on a channel: without a geometry there are no visible blocks (R4). -/
def Channel.dest (ch : Channel) (a : Nat) : Dest :=
  match ch.geometry with
  | some g => g.dest ch.remap a
  | none => .outside

/-- How a block lies in the channel's column words (R10). -/
def Channel.layout (ch : Channel) : Width := (ch.geometry.map Geometry.width).getD .full

/-- A block operation of translated traffic. -/
def Channel.blockOp (ch : Channel) (owner : OpOwner) (write : Option Block) (bank row col : Nat) : DsOp :=
  { owner := owner, write := write, bank := bank, row := row, col := col, layout := ch.layout }

end Sys2Proof.Machine
end

