-- ==== Sys2Proof/Machine/MarchEngine.lean ====
section
/-! DEFINITION. The March Engine (chapter 2): the march in force, backgrounds, the walk, the sweep context and the
compare. The step a completed block or an expired pause brings about is in Sys2Proof/Machine/Testing.lean. -/

namespace Sys2Proof.Machine

/-! ### The default march (R34) -/

/-- An element of the default march: checker background, repeat code 1. -/
def checkerElement (down : Bool) (ops : List MarchOp) (pause : Nat) : Element :=
  { down := down, ops := ops, count := ops.length, background := .checker, repeatCode := 1, pauseCode := pause }

def defaultMarch : List Element :=
  [checkerElement false [.w0] 0, checkerElement false [.r0, .w1] 0, checkerElement false [.r1, .w0] 0,
   checkerElement true [.r0, .w1] 0, checkerElement true [.r1, .w0] 4, checkerElement false [.r0] 0]

/-- The march a channel is swept with: its profile's, or the default march (R19). -/
def Sequencer.march (q : Sequencer) : List Element :=
  match q.profile with
  | some (_, p) => p.elements
  | none => defaultMarch

/-! ### Elements (R20, R23, R25) -/

/-- The operations applied to each block: the first `count` entries (R20). -/
def Element.applied (e : Element) : List MarchOp := e.ops.take e.count

/-- The fixed pass count of a repeat code above 0; codes 9 to 15 act as 8 (R20, R23). -/
def repeatPasses (code : Nat) : Nat := min code 8

/-- The pause code in effect: 0 when strap bit 6 is 0 (R25). -/
def effectivePause (strap : BitVec 8) (e : Element) : Nat := if strapPauses strap then e.pauseCode else 0

/-- Element `n`, numbered from 1. -/
def elementAt (march : List Element) (n : Nat) : Option Element := if n = 0 then none else march[n - 1]?

/-- Element `n` is after a pause: it is not E1 and the one before has an effective pause (R25). -/
def afterPause (strap : BitVec 8) (march : List Element) (n : Nat) : Bool :=
  match elementAt march (n - 1) with
  | some e => decide (n ≠ 1) && decide (0 < effectivePause strap e)
  | none => false

/-! ### Backgrounds (R21) -/

/-- D of the column word at a physical row and column: true is all ones. -/
def backgroundOnes (b : Background) (row column : Nat) : Bool :=
  match b with
  | .solid => false
  | .checker => (row + column) % 2 == 1
  | .rowStripe => row % 2 == 1
  | .columnStripe => column % 2 == 1

/-- Bits of a column word. -/
def Width.wordBits (w : Width) : Nat := 8 * w.wordBytes

/-- Column word `j` of a block, as 64 lanes; at half width lanes 32 to 63 are 0 (R3, R10). -/
def blockWord (w : Width) (b : Block) (j : Nat) : BitVec 64 :=
  match w with
  | .full => b.extractLsb' (64 * j) 64
  | .half => (b.extractLsb' (32 * j) 32).setWidth 64

/-- The block whose column word `j` is all ones where `ones j`, else all zeros. -/
def wordsBlock (w : Width) (ones : Nat → Bool) : Block :=
  BitVec.ofNat 512 (((List.range w.columnsPerBlock).map fun j =>
    if ones j then (2 ^ w.wordBits - 1) * 2 ^ (w.wordBits * j) else 0).sum)

/-- D, or ~D when `invert`, over a block (R20, R21). -/
def patternBlock (w : Width) (b : Background) (row col : Nat) (invert : Bool) : Block :=
  wordsBlock w fun j => (backgroundOnes b row (col * w.columnsPerBlock + j)) ^^ invert

/-- Whether an operation writes or expects ~D. -/
def MarchOp.inverts : MarchOp → Bool
  | .w0 | .r0 => false
  | .w1 | .r1 => true

def MarchOp.writes : MarchOp → Bool
  | .w0 | .w1 => true
  | .r0 | .r1 => false

/-! ### The compare (R29, R30) -/

/-- Lanes on which column word `j` differs. -/
def wordDiff (w : Width) (data expected : Block) (j : Nat) : BitVec 64 :=
  blockWord w data j ^^^ blockWord w expected j

/-- The failing column numbers, ascending (R29). -/
def failingColumns (w : Width) (col : Nat) (data expected : Block) : List Nat :=
  ((List.range w.columnsPerBlock).filter fun j => wordDiff w data expected j != 0).map fun j =>
    col * w.columnsPerBlock + j

/-- The lanes that differ in any failing column (R30). -/
def failingLanes (w : Width) (data expected : Block) : BitVec 64 :=
  (List.range w.columnsPerBlock).foldl (fun acc j => acc ||| wordDiff w data expected j) 0

/-- A fail event (R30). -/
structure FailEvent where
  bank : Nat
  row : Nat
  columns : List Nat
  lanes : BitVec 64
  element : Nat
  afterPause : Bool
  deriving DecidableEq, Repr

/-! ### The walk (R22) -/

/-- The first block of a pass: row and block column. -/
def walkStart (g : Geometry) (down : Bool) : Nat × Nat :=
  if down then (g.rows - 1, g.blocksPerRow - 1) else (0, 0)

/-- The next block of a pass; none after the last. -/
def walkNext (g : Geometry) (down : Bool) (row col : Nat) : Option (Nat × Nat) :=
  if down then
    if 0 < col then some (row, col - 1) else if 0 < row then some (row - 1, g.blocksPerRow - 1) else none
  else
    if col + 1 < g.blocksPerRow then some (row, col + 1) else if row + 1 < g.rows then some (row + 1, 0) else none

/-! ### The sweep context (R27) -/

/-- The element running. -/
def Sweep.current (m : Sweep) : Option Element := elementAt m.march m.element

/-- Pass `pass` of element `n` begins: walk position at its first block, note clear, no pause (R24, R27). -/
def Sweep.beginPass (m : Sweep) (g : Geometry) (n pass : Nat) : Sweep :=
  let start := walkStart g (((elementAt m.march n).map Element.down).getD false)
  { m with element := n, pass := pass, row := start.1, col := start.2, passFailed := false, pause := none }

/-- The context at a sweep's start: element 1, pass 1 (R27). -/
def Sweep.start (march : List Element) (bank : Nat) (g : Geometry) : Sweep :=
  Sweep.beginPass { march := march, bank := bank, element := 1, pass := 1, row := 0, col := 0, passFailed := false,
                    pause := none } g 1 1

/-- Whether another pass of the element follows (R23, R24). -/
def Sweep.passAgain (m : Sweep) (e : Element) : Bool :=
  if e.repeatCode = 0 then m.passFailed && decide (m.pass < Config.settleMax)
  else decide (m.pass < repeatPasses e.repeatCode)

/-- The operations of the current block, in list order (R27). -/
def Sweep.blockOps (m : Sweep) (g : Geometry) : List DsOp :=
  match m.current with
  | none => []
  | some e => e.applied.map fun op =>
      { owner := .sweep true op,
        write := if op.writes then some (patternBlock g.width e.background m.row m.col op.inverts) else none,
        bank := m.bank, row := m.row, col := m.col, layout := g.width }

/-- Hand over the operations of the current block (R27). -/
def State.handSweepBlock (s : State) (c : Chan) : State :=
  match (s.chan c).march, (s.chan c).geometry with
  | some m, some g => (m.blockOps g).foldl (fun s op => s.handOver c op) s
  | _, _ => s

/-- The sweep of `bank` starts (R27). -/
def State.startSweep (s : State) (c : Chan) (bank : Nat) : State :=
  match (s.chan c).geometry with
  | some g => (s.setMarch c (some (Sweep.start (s.chan c).seq.march bank g))).handSweepBlock c
  | none => s

/-- The March Engine returns to IDLE: the pause timer stops, withholding ends, and the results of what was handed over
are to be discarded (R31). -/
def State.abandonSweep (s : State) (c : Chan) : State :=
  ((s.setMarch c none).updDs c fun d => { d with refreshWithheld := false }).mapOps c DsOp.discardSweep

end Sys2Proof.Machine
end

