-- ==== Sys2Proof/Machine/FailLogOps.lean ====
section
/-! DEFINITION. Taking a fail event into the Fail Log (chapter 3). -/

namespace Sys2Proof.Machine

/-- A merge's columns: each new one is appended while there is room, else the many-columns flag is set (R42). -/
def mergeColumns (cols : List Nat) (many : Bool) : List Nat → List Nat × Bool
  | [] => (cols, many)
  | x :: xs =>
    if cols.contains x then mergeColumns cols many xs
    else if cols.length < Config.columnCapacity then mergeColumns (cols ++ [x]) many xs
    else mergeColumns cols true xs

/-- The record a create appends (R40). -/
def FailEvent.record (ev : FailEvent) : FailRecord :=
  { bank := ev.bank, row := ev.row, columns := (mergeColumns [] false ev.columns).1,
    many := (mergeColumns [] false ev.columns).2, lanes := ev.lanes, count := 1, firstElement := ev.element,
    retention := ev.afterPause, status := .pending, target := none }

/-- A merge (R41 to R44). -/
def FailRecord.merge (r : FailRecord) (ev : FailEvent) : FailRecord :=
  { r with columns := (mergeColumns r.columns r.many ev.columns).1,
           many := (mergeColumns r.columns r.many ev.columns).2,
           lanes := r.lanes ||| ev.lanes, count := min (r.count + 1) Config.countMax }

/-- The record's key is (bank, row) (R38). -/
def FailRecord.hasKey (r : FailRecord) (bank row : Nat) : Bool := r.bank == bank && r.row == row

/-- Add a spare index to a bank's failed-spare set (R46). -/
def FailLog.addSpare (l : FailLog) (bank k : Nat) : FailLog :=
  if l.failedSpares.contains (bank, k) then l else { l with failedSpares := l.failedSpares ++ [(bank, k)] }

/-- Take one fail event: the new log and whether the answer is overflow (R39, R47). -/
def FailLog.take (l : FailLog) (visibleRows : Nat) (ev : FailEvent) : FailLog × Bool :=
  if visibleRows ≤ ev.row then (l.addSpare ev.bank (ev.row - visibleRows), false)
  else if l.records.any fun r => r.hasKey ev.bank ev.row then
    ({ l with records := l.records.map fun r => if r.hasKey ev.bank ev.row then r.merge ev else r }, false)
  else if l.records.length < Config.logCapacity then ({ l with records := l.records ++ [ev.record] }, false)
  else (l, true)

/-- Write a record's status and target through its key (R48). -/
def FailLog.setStatus (l : FailLog) (bank row : Nat) (st : RecStatus) (target : Option Nat) : FailLog :=
  { l with records := l.records.map fun r => if r.hasKey bank row then { r with status := st, target := target } else r }

/-- The PENDING records of a bank, in log order (R49). -/
def FailLog.pendingOf (l : FailLog) (bank : Nat) : List FailRecord :=
  l.records.filter fun r => r.bank == bank && r.status == .pending

/-- Whether spare `k` is in a bank's failed-spare set. -/
def FailLog.spareFailed (l : FailLog) (bank k : Nat) : Bool := l.failedSpares.contains (bank, k)

/-- How many records hold a status (R49). -/
def FailLog.countStatus (l : FailLog) (st : RecStatus) : Nat :=
  (l.records.filter fun r => r.status == st).length

end Sys2Proof.Machine
end

