-- ==== Sys2Proof/Machine/Repair.lean ====
section
/-! DEFINITION. The Repair Analyser (chapter 4) and the Shadow Allocator (chapter 5, section 5.3). An analysis runs
inside the step that ends the sweep up to its first shadow claim, and from each answered claim to the next
(95_what_each_step_holds.md). -/

namespace Sys2Proof.Machine

/-! ### Thresholds (R54) -/

/-- T = T code + 1, codes above 15 taken as 15. -/
def Sequencer.threshold (q : Sequencer) : Nat :=
  match q.profile with
  | some (_, p) => min p.tCode 15 + 1
  | none => Config.defaultT

/-- C = 2 × C code + 2, codes above 15 taken as 15. -/
def Sequencer.columnThreshold (q : Sequencer) : Nat :=
  match q.profile with
  | some (_, p) => 2 * min p.cCode 15 + 2
  | none => Config.defaultC

def Sequencer.repairsMarginal (q : Sequencer) : Bool :=
  match q.profile with
  | some (_, p) => p.repairMarginal
  | none => false

/-! ### The column check (R55, R56) -/

/-- The number of records whose list holds the column. -/
def columnRows (recs : List FailRecord) (x : Nat) : Nat := (recs.filter fun r => r.columns.contains x).length

/-- Some listed column fails in `c` rows or more. -/
def columnFaulted (recs : List FailRecord) (c : Nat) : Bool :=
  recs.any fun r => r.columns.any fun x => decide (c ≤ columnRows recs x)

/-! ### Candidates (R57) -/

/-- Put a record before the first one whose count is no higher. -/
def insertByCount (x : FailRecord) : List FailRecord → List FailRecord
  | [] => [x]
  | y :: ys => if y.count ≤ x.count then x :: y :: ys else y :: insertByCount x ys

/-- Descending fail count, records with equal counts in log order. -/
def byCount (l : List FailRecord) : List FailRecord := l.foldr insertByCount []

/-! ### Outcomes of a candidate (R58 to R63) -/

/-- The lowest good and free bank spare of the bank under analysis (R58). -/
def Analysis.goodSpare (a : Analysis) (l : FailLog) (spares : Nat) : Option Nat :=
  (List.range spares).find? fun k => !l.spareFailed a.bank k && !a.given.contains k

def Target.isShadow : Target → Bool
  | .shadow _ => true
  | .spare _ => false

/-- Shadow entries the channel holds: its remap entries that name one (R59). -/
def heldEntries (t : List RemapEntry) : Nat := (t.filter fun e => e.target.isShadow).length

/-- Spares per bank of the channel's geometry. -/
def Channel.spares (ch : Channel) : Nat := (ch.geometry.map Geometry.spares).getD 0

/-- A record becomes REPAIRED_SPARE together with its remap entry (R63). -/
def Channel.repairSpare (ch : Channel) (bank row k : Nat) : Channel :=
  { ch with log := ch.log.setStatus bank row .repairedSpare (some k),
            remap := ch.remap ++ [{ bank := bank, row := row, target := .spare k }] }

/-- A record becomes REPAIRED_SHADOW together with its remap entry (R63, R79). -/
def Channel.repairShadow (ch : Channel) (bank row entry : Nat) : Channel :=
  { ch with log := ch.log.setStatus bank row .repairedShadow (some entry),
            remap := ch.remap ++ [{ bank := bank, row := row, target := .shadow entry }] }

/-- A candidate becomes UNREPAIRABLE, which adds the cause (R60, R65). -/
def Channel.markUnrepairable (ch : Channel) (bank row : Nat) : Channel :=
  { ch with log := ch.log.setStatus bank row .unrepairable none,
            seq := { ch.seq with causes := { ch.seq.causes with unrepairable := true } } }

/-! ### The marginal pass (R61) -/

/-- Treat the marginal candidates, then wait for the analysis to complete. -/
def marginalPass : List Nat → Analysis → Channel → Channel
  | [], a, ch => { ch with analyser := some { a with phase := .marginal, candidates := [] } }
  | row :: rest, a, ch =>
    match (if a.complete && a.repairMarginal then a.goodSpare ch.log ch.spares else none) with
    | some k => marginalPass rest { a with given := k :: a.given } (ch.repairSpare a.bank row k)
    | none => marginalPass rest a { ch with log := ch.log.setStatus a.bank row .marginal none }

/-- The marginal pass over the records still PENDING when it begins. -/
def beginMarginal (a : Analysis) (ch : Channel) : Channel :=
  marginalPass ((byCount (ch.log.pendingOf a.bank)).map FailRecord.row) a ch

/-! ### The primary pass (R57 to R60) -/

/-- Treat the primary candidates up to the first that needs a claim; the marginal pass follows the last. -/
def primaryPass : List Nat → Analysis → Channel → Channel
  | [], a, ch => beginMarginal a ch
  | row :: rest, a, ch =>
    match (if a.complete then a.goodSpare ch.log ch.spares else none) with
    | some k => primaryPass rest { a with given := k :: a.given } (ch.repairSpare a.bank row k)
    | none =>
      if heldEntries ch.remap < a.cap then
        { ch with analyser := some { a with phase := .claiming, candidates := row :: rest } }
      else primaryPass rest a (ch.markUnrepairable a.bank row)

/-! ### The start of an analysis (R53, R56) -/

/-- The context an analysis of `bank` starts with (R52, R53). -/
def Channel.analysisContext (ch : Channel) (bank : Nat) (complete : Bool) (cap : Nat) : Analysis :=
  { phase := .primary, bank := bank, complete := complete, t := ch.seq.threshold, c := ch.seq.columnThreshold,
    repairMarginal := ch.seq.repairsMarginal, cap := cap, candidates := [], given := [] }

/-- Every PENDING record of a column-faulted bank becomes COLUMN (R56). -/
def FailLog.faultBank (l : FailLog) (bank : Nat) : FailLog :=
  { l with records := l.records.map fun r =>
      if r.bank == bank && r.status == .pending then { r with status := .column, target := none } else r }

/-- The analysis of a bank, from the column check to its first claim or its end. -/
def Channel.beginAnalysis (ch : Channel) (bank : Nat) (complete : Bool) (cap : Nat) : Channel :=
  let a := ch.analysisContext bank complete cap
  let recs := ch.log.pendingOf bank
  if columnFaulted recs a.c then
    { ch with log := ch.log.faultBank bank,
              seq := { ch.seq with causes := { ch.seq.causes with column := true } },
              analyser := some { a with phase := .checking } }
  else primaryPass ((byCount (recs.filter fun r => decide (a.t ≤ r.count))).map FailRecord.row) a ch

/-- The channel enters ANALYSING and its analyser starts (R53). -/
def State.startAnalysis (s : State) (c : Chan) (bank : Nat) (complete : Bool) : State :=
  s.updChan c fun ch =>
    ({ ch with seq := { ch.seq with state := .analysing } } : Channel).beginAnalysis bank complete s.shadow.cap

/-! ### The Shadow Allocator (R77 to R81) -/

/-- The lowest-numbered free entry. -/
def Shadow.lowestFree (sh : Shadow) : Option (Fin 32) :=
  (List.finRange 32).find? fun e => sh.holders[e.val] == none

/-- A grant: the place records the channel and the buffer is filled with zeros (R79). -/
def Shadow.grant (sh : Shadow) (e : Fin 32) (c : Chan) : Shadow :=
  { sh with holders := sh.holders.set e.val (some c), store := shadowZeroFill sh.store e.val }

/-- The places that record a channel return to the free set; buffers are not cleared (R81). -/
def Shadow.free (sh : Shadow) (c : Chan) : Shadow :=
  { sh with holders := sh.holders.map fun h => if h = some c then none else h }

/-- How many places record a channel (R77). -/
def Shadow.heldBy (sh : Shadow) (c : Chan) : Nat := (sh.holders.toList.filter fun h => h == some c).length

/-- The allocator takes the claim of channel `c` for row `row` and the analyser applies the answer, then goes on with
`rest` (R59, R79). -/
def State.answerClaim (s : State) (c : Chan) (a : Analysis) (row : Nat) (rest : List Nat) : State :=
  match s.shadow.lowestFree with
  | some e =>
    ({ s with shadow := s.shadow.grant e c }).updChan c fun ch =>
      primaryPass rest { a with phase := .primary } (ch.repairShadow a.bank row e.val)
  | none =>
    s.updChan c fun ch => primaryPass rest { a with phase := .primary } (ch.markUnrepairable a.bank row)

end Sys2Proof.Machine
end

