-- ==== Sys2Proof/Machine/Slots.lean ====
section
/-! DEFINITION. The Test Slot Arbiter (chapter 7, section 7.1) and the budget timers (section 7.2). -/

namespace Sys2Proof.Machine

def State.updArbiter (s : State) (f : Arbiter → Arbiter) : State := { s with arbiter := f s.arbiter }

/-- A grant: the channel joins the holders, enters TESTING, enters its next bank and starts its sweep (R97, R111). -/
def State.grantSlot (s : State) (c : Chan) : State :=
  let bank := (s.chan c).seq.nextBank
  let s1 := s.updArbiter fun a => { a with holders := a.holders ++ [c] }
  (s1.updSeq c fun q => { q with state := .testing, entered := q.entered ++ [bank] }).startSweep c bank

/-- A channel enters QUEUED and asks for a slot: granted at once, or at the tail of the wait queue (R111). -/
def State.requestSlot (s : State) (c : Chan) : State :=
  let s1 := s.setSeqState c .queued
  if s1.arbiter.holders.length < s1.arbiter.slots then s1.grantSlot c
  else s1.updArbiter fun a => { a with waitQueue := a.waitQueue ++ [c] }

/-- A holder releases its slot; the head of the wait queue takes it, or it stays free (R112). -/
def State.releaseSlot (s : State) (c : Chan) : State :=
  let s1 := s.updArbiter fun a => { a with holders := a.holders.filter fun h => h != c }
  match s1.arbiter.waitQueue with
  | [] => s1
  | head :: rest => (s1.updArbiter fun a => { a with waitQueue := rest }).grantSlot head

/-- A waiting channel departs without a grant (R113). -/
def State.departQueue (s : State) (c : Chan) : State :=
  s.updArbiter fun a => { a with waitQueue := a.waitQueue.filter fun h => h != c }

/-! ### Budget timers -/

def Loader.hasDescriptor (l : Loader) : Bool := l.state == .valid || l.state == .truncated

/-- The settled budget duration in ms; none is no budget (R115). -/
def State.settledBudget (s : State) : Option Nat :=
  match (if s.loader.hasDescriptor then s.loader.kept.budgetExt else none) with
  | some v => if v = 0 then strapBudget s.strap else some (v * 10)
  | none => strapBudget s.strap

/-- A timer under a limit, or with none (R115, R116). -/
def timerUnder (limit : Option Nat) : Timer :=
  match limit with
  | some ms => .running ms
  | none => .unlimited

/-- Settling applies to every timer that is RUNNING or UNLIMITED (R115). -/
def Timer.settle (t : Timer) (limit : Option Nat) : Timer :=
  match t with
  | .running _ | .unlimited => timerUnder limit
  | .stopped => .stopped
  | .expired => .expired

/-- Settle the duration of all four timers (R115). -/
def State.settleBudgets (s : State) : State :=
  allChans.foldl (fun x c => x.updSeq c fun q => { q with timer := q.timer.settle s.settledBudget }) s

end Sys2Proof.Machine
end

