-- ==== Sys2Proof/Machine/Report.lean ====
section
/-! DEFINITION. The content of the report (R154, R160, section 11.5). -/

namespace Sys2Proof.Machine

/-! ### Codes -/

def LoaderState.code : LoaderState → Nat
  | .idle => 0
  | .loading => 1
  | .valid => 2
  | .truncated => 3
  | .absent => 4
  | .bad => 5
  | .late => 6

def SeqState.code : SeqState → Nat
  | .powering => 0
  | .identifying => 1
  | .selecting => 2
  | .queued => 3
  | .testing => 4
  | .analysing => 5
  | .done => 6
  | .opened => 7
  | .draining => 8
  | .closing => 9
  | .failed => 10
  | .absent => 11

def EndResult.code : EndResult → Nat
  | .unset => 0
  | .clean => 1
  | .repaired => 2
  | .partly => 3
  | .untested => 4
  | .degraded => 5
  | .failed => 6

def Reason.code : Reason → Nat
  | .unset => 0
  | .repair => 1
  | .supplyLost => 2
  | .noResponse => 3
  | .identityUnstable => 4
  | .width => 5
  | .geometry => 6
  | .notReady => 7

def widthCode : Option Width → Nat
  | none => 0
  | some .full => 1
  | some .half => 2

/-- The target kind of a repair list entry carries the status. -/
def RecStatus.kindCode : RecStatus → Nat
  | .repairedSpare => 0
  | .repairedShadow => 1
  | .marginal => 2
  | .unrepairable => 3
  | .column => 4
  | .pending => 5

/-! ### Bytes -/

def byteOf (n : Nat) : Byte := BitVec.ofNat 8 n

/-- A field of `k` bytes, little-endian (R160). -/
def littleEndian : Nat → Nat → List Byte
  | 0, _ => []
  | k + 1, n => byteOf n :: littleEndian k (n / 256)

def byteSum (l : List Byte) : Nat := (l.map BitVec.toNat).sum

/-- (256 − sum of every other byte) mod 256 (R160). -/
def checkByte (others : List Byte) : Byte := byteOf (256 - byteSum others % 256)

/-- Bank b's position is set when b is in the set (R154). -/
def bankMask (banks : List Nat) : Nat :=
  ((List.range 16).map fun b => if banks.contains b then 2 ^ b else 0).sum

/-- The lowest lane a mask marks. -/
def lowestLane (m : BitVec 64) : Nat := ((List.range 64).find? fun i => m.getLsbD i).getD 0

/-- The mask marks exactly one lane. -/
def singleLane (m : BitVec 64) : Bool := ((List.range 64).filter fun i => m.getLsbD i).length == 1

/-! ### Records -/

/-- One repair list entry of 8 bytes (section 11.5). -/
def FailRecord.entryBytes (r : FailRecord) : List Byte :=
  [byteOf r.bank] ++ littleEndian 2 r.row ++
  [byteOf r.status.kindCode, byteOf (r.target.getD 0), byteOf r.count,
   byteOf (r.firstElement % 16 + bitAt r.retention 4 + bitAt r.many 5),
   byteOf (lowestLane r.lanes + bitAt (singleLane r.lanes) 7)]

/-- The header record before its check byte (section 11.5). -/
def State.headerBody (s : State) : List Byte :=
  [byteOf 1, byteOf Config.partLevel, s.strap, byteOf s.loader.state.code] ++
  littleEndian 2 s.loader.kept.revision.toNat ++ [byteOf 4] ++ List.replicate 24 0

def State.headerRecord (s : State) : List Byte := s.headerBody ++ [checkByte s.headerBody]

/-- Byte 7 of a channel record. -/
def Sequencer.flagsByte (q : Sequencer) : Byte :=
  byteOf (bitAt q.aliasUsed 0 + 2 * widthCode q.width + bitAt q.supplyUnconfirmed 3 + bitAt q.causes.unrepairable 4
    + bitAt q.causes.column 5 + bitAt q.causes.overflow 6)

/-- The banks that hold a COLUMN record (R49). -/
def FailLog.columnBanks (l : FailLog) : List Nat :=
  (l.records.filter fun r => r.status == .column).map FailRecord.bank

/-- A channel record's length: 32 + 8 × record count. -/
def FailLog.recordLength (l : FailLog) : Nat := 32 + 8 * l.records.length

/-- Bytes 0 to 30 of a channel's record (section 11.5). -/
def State.channelBody (s : State) (c : Chan) : List Byte :=
  let ch := s.chan c
  let q := ch.seq
  let len := ch.log.recordLength
  [byteOf (2 + 16 * c.val)] ++ littleEndian 2 len ++ littleEndian 2 (if c.val = 3 then 0 else len) ++
  [byteOf (q.state.code + 16 * q.result.code), byteOf q.reason.code, q.flagsByte] ++
  littleEndian 2 (q.identityRead.getD 0).toNat ++ littleEndian 2 (q.effective.getD 0).toNat ++
  [byteOf ((q.profile.map Prod.fst).getD 255), byteOf ch.log.records.length] ++
  littleEndian 4 ch.visibleBlocks ++
  littleEndian 2 (bankMask q.entered) ++ littleEndian 2 (bankMask q.fullySwept) ++
  littleEndian 2 (bankMask ch.log.columnBanks) ++
  [byteOf (ch.log.countStatus .repairedSpare), byteOf (ch.log.countStatus .repairedShadow),
   byteOf (ch.log.countStatus .marginal), byteOf (ch.log.countStatus .unrepairable),
   byteOf (s.shadow.heldBy c)] ++
  littleEndian 2 ch.port.rejectedCount

/-- The repair list: one entry per fail record, in log order (R154). -/
def State.repairList (s : State) (c : Chan) : List Byte := (s.chan c).log.records.flatMap FailRecord.entryBytes

/-- A channel's record: 31 bytes, the check byte over the whole record, the repair list. -/
def State.channelRecord (s : State) (c : Chan) : List Byte :=
  s.channelBody c ++ [checkByte (s.channelBody c ++ s.repairList c)] ++ s.repairList c

/-- The report as one byte string (R160). -/
def State.reportBytes (s : State) : List Byte := s.headerRecord ++ allChans.flatMap s.channelRecord

/-- Bytes into 64-byte blocks, the last filled up with zeros (R154, R160). -/
def packBlocks (l : List Byte) : List Block :=
  (List.range ((l.length + 63) / 64)).map fun i => blockOfBytes ((l.drop (64 * i)).take 64)

def State.reportBlocks (s : State) : List Block := packBlocks s.reportBytes

end Sys2Proof.Machine
end

