-- ==== Sys2Proof/Machine/ReportWriter.lean ====
section
/-! DEFINITION. The Report Writer (chapter 10) and the opening of channels (R99): starting, placing, handing over blocks,
ending, and what every change of a channel's state brings about. -/

namespace Sys2Proof.Machine

def State.updWriter (s : State) (f : Writer → Writer) : State := { s with writer := f s.writer }

/-- A DONE channel becomes OPEN: credit count 16, RESTORE 16 (R99, R137). -/
def State.openChannel (s : State) (c : Chan) : State :=
  (s.setSeqState c .opened).updPort c fun p =>
    { p with credit := Config.creditMax, outbound := p.outbound ++ [.restore Config.creditMax] }

/-- A channel enters DONE; with strap bit 5 at 0 it becomes OPEN at that moment (R99). -/
def State.enterDone (s : State) (c : Chan) : State :=
  let s1 := s.setSeqState c .done
  if strapPublish s1.strap then s1 else s1.openChannel c

/-! ### Placement (R153) -/

def SeqState.reportable (x : SeqState) : Bool := x == .done || x == .opened

/-- The channel a write goes to. -/
def State.placeChannel (s : State) : Option Chan :=
  if (s.seqState s.loader.kept.reportChannel).reportable then some s.loader.kept.reportChannel
  else allChans.find? fun c => (s.seqState c).reportable

/-- The base block on a channel: offset × 1024 when the area fits, else 0. -/
def State.placeBase (s : State) (c : Chan) : Nat :=
  if s.loader.kept.reportOffset * 1024 + Config.reportAreaBlocks ≤ (s.chan c).visibleBlocks then
    s.loader.kept.reportOffset * 1024
  else 0

/-! ### Handing over a block (R17, R155) -/

/-- The current block of a write. -/
def Write.data (w : Write) : Block := (w.blocks[w.index]?).getD 0

/-- Translate the current block of a write: to memory, to the Shadow Row Store, or discarded. A SHADOW block is only handed
to the store: `State.storeReport` serves it, at its completion or ahead of a later access of the same channel; a loss or a
retest that comes first discards it (R86, R156; log entry 21). -/
def State.carryReportBlock (s : State) (w : Write) : State :=
  let ch := s.chan w.chan
  match ch.dest (w.base + w.index) with
  | .direct bank row col | .spare bank row col =>
    (s.handOver w.chan (ch.blockOp (.report true) (some w.data) bank row col)).updWriter fun x =>
      { x with write := some { w with blockAt := .memory } }
  | .shadow entry col => s.updWriter fun x => { x with write := some { w with blockAt := .store entry col } }
  | .outside => s.updWriter fun x => { x with write := some { w with blockAt := .settled } }

/-- The store serves the block of `w` that it holds: the 64 bytes enter the buffer (R85, R86). -/
def State.storeWrite (s : State) (w : Write) : State :=
  match w.blockAt with
  | .store entry col =>
    ({ s with shadow := { s.shadow with store := shadowWriteBlock s.shadow.store entry col w.data } }).updWriter fun x =>
      { x with write := some { w with blockAt := .settled } }
  | .waiting | .memory | .settled => s

/-- The store serves the report block it holds of a channel, if it holds one (R86). -/
def State.storeReport (s : State) (c : Chan) : State :=
  match s.writer.write with
  | some w => if w.chan = c then s.storeWrite w else s
  | none => s

/-- Hand over the current block, between two requests: it waits while a request of the channel's port is in service
(R17). -/
def State.handReportBlock (s : State) (w : Write) : State :=
  if (s.chan w.chan).port.queue.isEmpty then s.carryReportBlock w
  else s.updWriter fun x => { x with write := some { w with blockAt := .waiting } }

/-- A request has left the port's queue: a report block waiting on that channel is translated first (R17). -/
def State.carryWaitingReport (s : State) (c : Chan) : State :=
  match s.writer.write with
  | some w => if w.chan = c ∧ w.blockAt = .waiting then s.carryReportBlock w else s
  | none => s

/-! ### Start and end of a write (R152, R155, R156) -/

/-- Start a write if it can be placed; a publish is spent either way (R152 to R154). -/
def State.startWrite (s : State) : State :=
  let s1 := s.updWriter fun x => { x with pendingPublish := false }
  match s.placeChannel with
  | none => s1
  | some c =>
    s1.handReportBlock
      { chan := c, base := s.placeBase c, blocks := s.reportBlocks, index := 0, blockAt := .waiting,
        startSet := allChans.filter fun d => s.seqState d == .done }

/-- A testing state in the sense of R152. -/
def SeqState.isTesting : SeqState → Bool
  | .powering | .identifying | .selecting | .queued | .testing | .analysing => true
  | _ => false

/-- The automatic start is due: no channel is testing and at least one is DONE (R152). -/
def State.autoDue (s : State) : Bool :=
  allChans.all (fun c => !(s.seqState c).isTesting) && allChans.any fun c => s.seqState c == .done

/-- An IDLE writer starts when a publish is pending or the automatic start is due (R152). -/
def State.maybeStart (s : State) : State :=
  if strapPublish s.strap && s.writer.write.isNone && (s.writer.pendingPublish || s.autoDue) then s.startWrite else s

/-- A write ends: the channels of its start set that are still DONE become OPEN, the writer becomes IDLE (R155). -/
def State.endWrite (s : State) (w : Write) : State :=
  let s1 := w.startSet.foldl (fun x c => if x.seqState c = .done then x.openChannel c else x) s
  s1.updWriter fun x => { x with write := none }

/-- States in which a report write goes on (R156). -/
def SeqState.carriesReport (x : SeqState) : Bool := x == .done || x == .opened || x == .draining

/-- A write is abandoned when its placed channel has left DONE, OPEN and DRAINING (R156). -/
def State.abandonWrite (s : State) : State :=
  match s.writer.write with
  | some w =>
    if (s.seqState w.chan).carriesReport then s else (s.mapOps w.chan DsOp.discardReport).endWrite w
  | none => s

/-- What a change of a channel's state brings about in the Report Writer and the Board Line Unit (R152, R156, R157). -/
def State.settle (s : State) : State := s.abandonWrite.maybeStart.raiseReady

/-- The current block has completed or been discarded: hand over the next, or end the write (R155). -/
def State.nextReportBlock (s : State) (w : Write) : State :=
  if w.index + 1 < w.blocks.length then s.handReportBlock { w with index := w.index + 1, blockAt := .waiting }
  else (s.endWrite w).settle

/-- A publish escape (R148, R152). -/
def State.publish (s : State) : State :=
  if strapPublish s.strap then (s.updWriter fun x => { x with pendingPublish := true }).maybeStart else s

end Sys2Proof.Machine
end

