-- ==== Sys2Proof/Machine/Bringup.lean ====
section
/-! DEFINITION. The Channel Sequencer's transitions (chapter 6): identification, selection, the end of testing, channel
loss and the beginning of a retest. -/

namespace Sys2Proof.Machine

/-- The channel becomes FAILED with a reason, which makes FAULT active (R106, R158). -/
def State.failChannel (s : State) (c : Chan) (why : Reason) : State :=
  (s.takeResult c .failed why).setSeqState c .failed

/-! ### Identification (R90, R92) -/

/-- The channel enters IDENTIFYING and begins the identity read at select value 0 (R90). -/
def State.enterIdentifying (s : State) (c : Chan) : State :=
  (s.updSeq c fun q => { q with state := .identifying, supplyWait := false, ident := .reading 0 1 none [] }).updDs c
    fun d => { d with select := 0 }

/-- The identity read or the width check stops; an operation at the Downstream Sequencer completes with its data
discarded (R90, R92). The select lines keep the value last driven: DESIGN CHOICE (log entry 22). -/
def State.stopIdentify (s : State) (c : Chan) : State :=
  (s.updSeq c fun q => { q with ident := .idle }).mapOps c DsOp.discardWidth

/-- Block of eight equal 64-lane words. -/
def eightWords (w : BitVec 64) : Block := w ++ w ++ w ++ w ++ w ++ w ++ w ++ w

/-- Width-check operation `n`, 1 to 4 (R92). -/
def widthOp (n : Nat) : DsOp :=
  { owner := .widthCheck true,
    write := match n with
             | 1 => some (eightWords Config.widthPattern)
             | 3 => some (eightWords Config.widthComplement)
             | _ => none,
    bank := 0, row := 0, col := 0, layout := .full }

/-- Hand over width-check operation `n`. -/
def State.handWidthOp (s : State) (c : Chan) (n : Nat) : State := s.handOver c (widthOp n)

/-- Lanes 0 to 31 of every word match the pattern and lanes 32 to 63 of every word read one (R93). -/
def halfMatch (pattern : BitVec 64) (data : Block) : Bool :=
  (List.range 8).all fun j =>
    (blockWord .full data j).extractLsb' 0 32 == pattern.extractLsb' 0 32 &&
    (blockWord .full data j).extractLsb' 32 32 == BitVec.allOnes 32

/-- The width judged from the two reads (R93). -/
def judgeWidth (r1 r2 : Block) : Option Width :=
  if r1 = eightWords Config.widthPattern ∧ r2 = eightWords Config.widthComplement then some .full
  else if halfMatch Config.widthPattern r1 && halfMatch Config.widthComplement r2 then some .half
  else none

/-- At half width lanes 32 to 63 have no device: the record keeps only bytes 0 to 3 of each column word (R92). -/
def dropUpperLanes (m : List Host.Cell) : List Host.Cell := m.filter fun x => x.1 % 8 < 4

/-! ### Selection (R94 to R96) -/

/-- The first kept alias override naming a channel (R95). -/
def Loader.aliasFor (l : Loader) (c : Chan) : Option (BitVec 16) :=
  if l.hasDescriptor then
    l.kept.overrides.findSome? fun o =>
      match o with
      | .aliasId d v => if d = c then some v else none
      | .skipTest _ => none
  else none

/-- A kept skip-test override names the channel (R96). -/
def Loader.skips (l : Loader) (c : Chan) : Bool :=
  l.hasDescriptor && l.kept.overrides.any fun o =>
    match o with
    | .skipTest d => d == c
    | .aliasId _ _ => false

/-- The first profile of the list, with its index counted from `i`, whose identity matches and whose minimum level is
the part's or below (R95). -/
def firstProfile (v : BitVec 16) : Nat → List Profile → Option (Nat × Profile)
  | _, [] => none
  | i, p :: rest =>
    if p.identity = v ∧ p.minLevel ≤ Config.partLevel then some (i, p) else firstProfile v (i + 1) rest

def Loader.profileFor (l : Loader) (v : BitVec 16) : Option (Nat × Profile) :=
  if l.hasDescriptor then firstProfile v 0 l.kept.profiles else none

/-- The channel takes UNTESTED and enters DONE (R69, R96, R118). -/
def State.finishUntested (s : State) (c : Chan) : State := (s.takeResult c .untested .unset).enterDone c

/-- The channel makes its selection on an effective identity: the geometry, or FAILED GEOMETRY, then by `test` a slot
request or UNTESTED (R95, R96, R118). -/
def State.selectOn (s : State) (c : Chan) (v : BitVec 16) (viaAlias : Bool) (w : Width)
    (profile : Option (Nat × Profile)) (test : Bool) : State :=
  let s1 := s.updSeq c fun q => { q with effective := some v, aliasUsed := viaAlias }
  match decodeIdentity v w with
  | none => s1.failChannel c .geometry
  | some g =>
    let s2 := (s1.setGeometry c (some g)).updSeq c fun q => { q with profile := profile }
    if test then (s2.updSeq c fun q => { q with nextBank := 0 }).requestSlot c else s2.finishUntested c

/-- The normal selection of a channel in SELECTING, with alias, profile, skip-test and slot code (R95, R96). -/
def State.selectChannel (s : State) (c : Chan) : State :=
  match (s.chan c).seq.identityRead, (s.chan c).seq.width with
  | some v, some w =>
    let eff := (s.loader.aliasFor c).getD v
    s.selectOn c eff (s.loader.aliasFor c).isSome w (s.loader.profileFor eff)
      (strapSlotCode s.strap != 0 && !s.loader.skips c)
  | _, _ => s

/-- The selection that a budget expiry brings: on the identity as read, without the loader (R118). -/
def State.selectUnread (s : State) (c : Chan) : State :=
  match (s.chan c).seq.identityRead, (s.chan c).seq.width with
  | some v, some w => s.selectOn c v false w none false
  | _, _ => s

/-- The channel selects if it is waiting in SELECTING (R94). -/
def State.selectIfWaiting (s : State) (c : Chan) : State :=
  if s.seqState c = .selecting then s.selectChannel c else s

/-! ### The end of testing (R68, R98) -/

def Causes.any (k : Causes) : Bool := k.unrepairable || k.column || k.overflow

/-- Every bank of the geometry is fully swept (R68 step 3). -/
def Channel.allSwept (ch : Channel) : Bool :=
  (List.range ((ch.geometry.map Geometry.banks).getD 0)).all fun b => ch.seq.fullySwept.contains b

/-- The end result of a channel (R68): the first line that applies. -/
def Channel.endResult (ch : Channel) (openFailed : Bool) : EndResult :=
  if ch.seq.causes.any then (if openFailed then .degraded else .failed)
  else if ch.seq.entered.isEmpty then .untested
  else if !ch.allSwept then .partly
  else if ch.log.records.isEmpty then .clean
  else .repaired

/-- Its reason: REPAIR at step 1, else none (R68). -/
def Channel.endReason (ch : Channel) : Reason := if ch.seq.causes.any then .repair else .unset

/-- Testing ends: the result is taken and the channel enters DONE, or FAILED REPAIR (R98). -/
def State.endTesting (s : State) (c : Chan) : State :=
  let r := (s.chan c).endResult s.loader.kept.openFailed
  if r = .failed then s.failChannel c .repair
  else (s.takeResult c r (s.chan c).endReason).enterDone c

/-! ### Channel loss (R102 to R104) -/

/-- Form the response of a read in CLOSING: in error, all zeros (R144, R146). -/
def Port.errorResponse (p : Port) (r : Request) : Message :=
  .response r.tag r.lenCode
    { phase := 3, rejected := p.rejected, range := p.range, remapped := false, shadow := false, error := true }
    (List.replicate r.blocks 0)

/-- The service record of a read that has been answered. -/
def Service.answered : Service := { slots := [], remapped := false, shadow := false, outside := false, formed := true }

/-- Whether the head read's response has been formed and not yet sent. -/
def Port.responseFormed (p : Port) : Bool := (p.service.map Service.formed).getD false

/-- CLOSING empties the queue, oldest first: writes are dropped, a read is answered in error (unless its response was
already formed) and leaves when that response has been sent; with the queue empty the channel enters FAILED (R104, R143,
R146; log entry 8). -/
def State.answerClosing : Nat → State → Chan → State
  | 0, s, _ => s
  | fuel + 1, s, c =>
    match (s.chan c).port.queue with
    | [] => s.setSeqState c .failed
    | r :: rest =>
      if r.isWrite then State.answerClosing fuel (s.updPort c fun p => { p with queue := rest, service := none }) c
      else if (s.chan c).port.responseFormed then s
      else s.updPort c fun p => { p.sendResponse (p.errorResponse r) with service := some Service.answered }

/-- Steps enough for any queue. -/
def State.closeQueue (s : State) (c : Chan) : State :=
  State.answerClosing ((s.chan c).port.queue.length + 1) s c

/-- The channel enters CLOSING (R104). -/
def State.enterClosing (s : State) (c : Chan) (why : Reason) : State :=
  let s1 := (s.takeResult c .failed why).setSeqState c .closing
  let s2 := s1.updPort c fun p =>
    { p with detector := .idle, service := if p.responseFormed then p.service else none }
  (s2.dropOps c fun _ => true).closeQueue c

/-- A loss reaches the Channel Sequencer (R102, R103, R104). In IDENTIFYING a report operation that a retest left at the
Downstream Sequencer is kept and completes as R108 has it, though the channel is then FAILED after a loss, where R156 has a
handed-over block abandoned; DESIGN CHOICE (log entry 26). A no-response has abandoned it before (R101). -/
def State.lose (s : State) (c : Chan) (why : Reason) : State :=
  match s.seqState c with
  | .identifying => ((s.stopIdentify c).failChannel c why).settle
  | .selecting => (s.failChannel c why).settle
  | .queued => ((s.departQueue c).failChannel c why).settle
  | .testing => (((s.abandonSweep c).releaseSlot c).failChannel c why).settle
  | .analysing => ((s.setAnalyser c none).failChannel c why).settle
  | .done => ((s.dropOps c DsOp.isReport).failChannel c why).settle
  | .opened | .draining => (s.enterClosing c why).settle
  | .powering | .closing | .failed | .absent => s

/-! ### Retest (R107, R108) -/

/-- The sequencer's fields at the beginning of a retest (R88): the supply-unconfirmed note is kept, and the budget timer
restarts under the settled duration (R116). -/
def Sequencer.retest (q : Sequencer) (limit : Option Nat) : Sequencer :=
  { Sequencer.reset with supplyUnconfirmed := q.supplyUnconfirmed, timer := timerUnder limit }

/-- The retest begins, in one step (R108). The record of DRAM writes stands (R36): it goes on listing the earlier bytes also
in a bank that the new sweep will leave truncated (R35); DESIGN CHOICE (log entry 24). -/
def State.beginRetest (s : State) (c : Chan) : State :=
  let limit := s.settledBudget
  let s1 := { s with shadow := s.shadow.free c }
  let s2 := s1.updChan c fun ch =>
    { ch with seq := ch.seq.retest limit, geometry := none, remap := [], log := FailLog.empty,
              port := { ch.port with credit := 0 } }
  (s2.enterIdentifying c).settle

end Sys2Proof.Machine
end

