-- ==== Sys2Proof/Machine/Testing.lean ====
section
/-! DEFINITION. Testing a bank (chapters 2, 3 and 6): what follows a completed sweep block, the end of a pass, an element
or a pause, an abandoned sweep, and the budget's expiry (R117 to R120). -/

namespace Sys2Proof.Machine

/-- The sweep completes: the bank is fully swept, the slot is released and the analysis starts (R28, R53, R97). -/
def State.completeSweep (s : State) (c : Chan) (bank : Nat) : State :=
  let s1 := (s.setMarch c none).updSeq c fun q => { q with fullySwept := q.fullySwept ++ [bank] }
  (s1.releaseSlot c).startAnalysis c bank true

/-- The sweep is cut short by the budget or by an overflow: the slot is released and the bank is analysed as truncated
(R31, R53, R97). -/
def State.truncateSweep (s : State) (c : Chan) (bank : Nat) : State :=
  ((s.abandonSweep c).releaseSlot c).startAnalysis c bank false

/-- Pass `pass` of element `n` begins: its first block is handed over (R27). -/
def State.beginPass (s : State) (c : Chan) (m : Sweep) (g : Geometry) (n pass : Nat) : State :=
  (s.setMarch c (some (m.beginPass g n pass))).handSweepBlock c

/-- The element's pause, if any, is over: pass 1 of the next element, or the sweep completes (R26, R28). -/
def State.nextElement (s : State) (c : Chan) (m : Sweep) (g : Geometry) : State :=
  if m.element < m.march.length then s.beginPass c m g (m.element + 1) 1 else s.completeSweep c m.bank

/-- The element ends: its pause starts, with refresh withheld, or the next element begins at once (R25, R26, R28). -/
def State.endElement (s : State) (c : Chan) (m : Sweep) (g : Geometry) (e : Element) : State :=
  if 0 < effectivePause s.strap e then
    (s.setMarch c (some { m with pause := some (8 * effectivePause s.strap e) })).updDs c fun d =>
      { d with refreshWithheld := true }
  else s.nextElement c m g

/-- The pass ends: another pass of the element, or the element's end (R23, R24, R28). -/
def State.endPass (s : State) (c : Chan) (m : Sweep) (g : Geometry) (e : Element) : State :=
  if m.passAgain e then s.beginPass c m g m.element (m.pass + 1) else s.endElement c m g e

/-- The operations of the current block are done: the next block, or the end of the pass (R22, R27). -/
def State.endBlock (s : State) (c : Chan) (m : Sweep) (g : Geometry) (e : Element) : State :=
  match walkNext g e.down m.row m.col with
  | some (row, col) => (s.setMarch c (some { m with row := row, col := col })).handSweepBlock c
  | none => s.endPass c m g e

/-- A live sweep read is compared: a failing read sets the pass-failed note and hands the Fail Log its event; an overflow
abandons the sweep and adds cause OVERFLOW (R29, R30, R47). -/
def State.compareRead (s : State) (c : Chan) (op : DsOp) (how : MarchOp) (data : Block) : State :=
  match (s.chan c).march, (s.chan c).geometry with
  | some m, some g =>
    match m.current with
    | some e =>
      let expected := patternBlock g.width e.background op.row op.col how.inverts
      let columns := failingColumns g.width op.col data expected
      if columns.isEmpty then s
      else
        let event : FailEvent :=
          { bank := m.bank, row := op.row, columns := columns, lanes := failingLanes g.width data expected,
            element := m.element, afterPause := afterPause s.strap m.march m.element }
        let taken := (s.chan c).log.take g.visibleRows event
        let s1 := (s.setMarch c (some { m with passFailed := true })).setLog c taken.1
        if taken.2 then
          (s1.updSeq c fun q => { q with causes := { q.causes with overflow := true } }).truncateSweep c m.bank
        else s1
    | none => s
  | _, _ => s

/-- Complete up to `n` sweep operations from the head of the stream, in hand-over order, as far as the data of the reads
goes: a write reaches memory; a live read is compared, a discarded one is not (R27, R31). -/
def State.completeSweepOps : Nat → State → Chan → List Block → State
  | 0, s, _, _ => s
  | n + 1, s, c, reads =>
    match (s.chan c).ds.ops with
    | [] => s
    | op :: _ =>
      match op.owner, op.write, reads with
      | .sweep _ _, some _, _ => State.completeSweepOps n (s.completeHead c) c reads
      | .sweep true how, none, data :: rest =>
        State.completeSweepOps n ((s.completeHead c).compareRead c op how data) c rest
      | .sweep false _, none, _ :: rest => State.completeSweepOps n (s.completeHead c) c rest
      | _, _, _ => s

/-- The number of operations at the head of a stream that belong to one block: sweep operations that are all live or all
to be discarded. -/
def sweepRun (ops : List DsOp) : Nat :=
  match ops with
  | [] => 0
  | op :: _ =>
    match op.owner with
    | .sweep live _ =>
      (ops.takeWhile fun o => match o.owner with
                              | .sweep l _ => l == live
                              | _ => false).length
    | _ => 0

/-- After its operations have completed, the March Engine goes on from the current block if none is left (R27). -/
def State.advanceSweep (s : State) (c : Chan) : State :=
  match (s.chan c).march, (s.chan c).geometry with
  | some m, some g =>
    match m.current with
    | some e => if (s.chan c).ds.ops.any DsOp.isLiveSweep then s else s.endBlock c m g e
    | none => s
  | _, _ => s

/-- Whether the head of a stream is a live sweep operation. -/
def headIsLiveSweep (ops : List DsOp) : Bool := (ops.head?.map DsOp.isLiveSweep).getD false

/-! ### Budget expiry (R117 to R120) -/

/-- What an expiry does in each state of the Channel Sequencer. In IDENTIFYING a report operation that a retest left at the
Downstream Sequencer stands and completes; DESIGN CHOICE (log entry 27). -/
def State.expireBudget (s : State) (c : Chan) : State :=
  match s.seqState c with
  | .powering => ((s.updSeq c fun q => { q with supplyWait := false }).failChannel c .notReady).settle
  | .identifying => ((s.stopIdentify c).failChannel c .notReady).settle
  | .selecting => (s.selectUnread c).settle
  | .queued => ((s.departQueue c).endTesting c).settle
  | .testing =>
    (s.updSeq c fun q => { q with budgetExpired := true }).truncateSweep c (s.chan c).seq.nextBank
  | .analysing => s.updSeq c fun q => { q with budgetExpired := true }
  | .done | .opened | .draining | .closing | .failed | .absent => s

/-- A timer that is running becomes EXPIRED and delivers its one expiry (R116). -/
def State.deliverExpiry (s : State) (c : Chan) : State :=
  match (s.chan c).seq.timer with
  | .running _ => (s.updSeq c fun q => { q with timer := .expired }).expireBudget c
  | .stopped | .expired | .unlimited => s

end Sys2Proof.Machine
end

