-- ==== Sys2Proof/Machine/Descriptor.lean ====
section
/-! DEFINITION. The Descriptor Loader (chapter 8): the check, parsing, and handing over the results. -/

namespace Sys2Proof.Machine

/-! ### What the loader sends (R122) -/

/-- The status-read command 0x05. -/
def statusReadCommand : List Byte := [0x05#8]

/-- The read command 0x03 and the three-byte address 0. -/
def imageReadCommand : List Byte := [0x03#8, 0#8, 0#8, 0#8]

/-! ### Header tests and the check (R123, R124) -/

/-- Bytes 0 and 1 are 0xA5 and 0x3C (R123). -/
def signatureGood (image : List Byte) : Bool := u8 image 0 == 0xA5 && u8 image 1 == 0x3C

/-- The total length, bytes 2 and 3. -/
def totalLength (image : List Byte) : Nat := u16 image 2

/-- Sum modulo 65536 of every byte but bytes 4 and 5 (R124). -/
def checkSum (image : List Byte) : Nat := (byteSum (image.take 4) + byteSum (image.drop 6)) % 65536

def checkGood (image : List Byte) : Bool := checkSum image == u16 image 4

/-! ### Parsing (R125 to R131) -/

/-- Take an extension record of length `len` at byte `at_` (R127). -/
def takeExtension (image : List Byte) (at_ len : Nat) (k : Kept) : Kept :=
  match u16 image (at_ + 2) with
  | 1 => if 6 ≤ len ∧ k.budgetExt = none then { k with budgetExt := some (u16 image (at_ + 4)) } else k
  | 2 => if 5 ≤ len ∧ k.capExt = none then { k with capExt := some (min (u8 image (at_ + 4)) Config.shadowEntries) } else k
  | _ => k

/-- Parse the extension chain from byte `at_`: the kept results, and where the overrides begin unless a record is
malformed (R126). Every record is 4 bytes or more, so as many steps as the image has bytes are enough. -/
def parseExtensions (image : List Byte) : Nat → Nat → Kept → Kept × Option Nat
  | 0, _, k => (k, none)
  | fuel + 1, at_, k =>
    if image.length < at_ + 2 then (k, none)
    else if u16 image at_ = 0 then (k, some (at_ + 2))
    else if u16 image at_ < 4 then (k, none)
    else if image.length < at_ + u16 image at_ then (k, none)
    else parseExtensions image fuel (at_ + u16 image at_) (takeExtension image at_ (u16 image at_) k)

/-- Take an override record (R128): kept when its type and channel are defined and there is room. -/
def takeOverride (image : List Byte) (at_ : Nat) (k : Kept) : Kept :=
  if h : u8 image (at_ + 1) < 4 ∧ k.overrides.length < Config.overrideCapacity then
    match u8 image at_ with
    | 1 => { k with overrides := k.overrides ++ [.aliasId ⟨_, h.1⟩ (BitVec.ofNat 16 (u16 image (at_ + 2)))] }
    | 2 => { k with overrides := k.overrides ++ [.skipTest ⟨_, h.1⟩] }
    | _ => k
  else k

/-- Parse `n` overrides (R128). -/
def parseOverrides (image : List Byte) : Nat → Nat → Kept → Kept × Option Nat
  | 0, at_, k => (k, some at_)
  | n + 1, at_, k =>
    if image.length < at_ + 4 then (k, none) else parseOverrides image n (at_ + 4) (takeOverride image at_ k)

/-- The first `n` elements of a profile at byte `at_` (section 11.4, Profile record). -/
def profileElementStarts (at_ n : Nat) : List Nat := (List.range n).map fun i => at_ + 9 + 4 * i

/-- A sound profile is dropped when its element count is 0 or above 12, or one of its elements has an operation count of
0 or above 4, or a direction code above 1 (R130). -/
def profileDropped (image : List Byte) (at_ : Nat) : Bool :=
  let n := u8 image (at_ + 8)
  n == 0 || decide (12 < n) || (profileElementStarts at_ n).any fun e =>
    elementOpCount image e == 0 || decide (4 < elementOpCount image e) || decide (1 < elementDirection image e)

/-- The profile at byte `at_` (R130, section 11.4). -/
def decodeProfile (image : List Byte) (at_ : Nat) : Profile :=
  { identity := BitVec.ofNat 16 (u16 image (at_ + 2)), minLevel := u8 image (at_ + 4), tCode := u8 image (at_ + 5),
    cCode := u8 image (at_ + 6), repairMarginal := u8 image (at_ + 7) % 2 == 1,
    elements := (profileElementStarts at_ (u8 image (at_ + 8))).map (decodeElement image) }

/-- Take a sound profile: kept, dropped, or skipped when 16 are kept (R130). -/
def takeProfile (image : List Byte) (at_ : Nat) (k : Kept) : Kept :=
  if profileDropped image at_ then k
  else if k.profiles.length < Config.profileCapacity then { k with profiles := k.profiles ++ [decodeProfile image at_] }
  else k

/-- Parse `n` profiles: the kept results, and whether none was malformed (R129). -/
def parseProfiles (image : List Byte) : Nat → Nat → Kept → Kept × Bool
  | 0, _, k => (k, true)
  | n + 1, at_, k =>
    let len := u16 image at_
    let count := u8 image (at_ + 8)
    if image.length < at_ + 9 ∨ len < 9 then (k, false)
    else if image.length < at_ + len then (k, false)
    else if 1 ≤ count ∧ count ≤ 12 ∧ len < 9 + 4 * count then (k, false)
    else parseProfiles image n (at_ + len) (takeProfile image at_ k)

/-- The header fields kept (R125, R131). -/
def headerFields (image : List Byte) : Kept :=
  { Kept.nothing with
    revision := BitVec.ofNat 16 (u16 image 6),
    reportChannel := if h : u8 image 10 < 4 then ⟨u8 image 10, h⟩ else 0,
    reportOffset := u16 image 11,
    openFailed := u8 image 13 % 2 == 1 }

/-- Parse a checked image: what is kept, and whether nothing was malformed (R125). -/
def parseImage (image : List Byte) : Kept × Bool :=
  match parseExtensions image image.length 16 (headerFields image) with
  | (k, none) => (k, false)
  | (k, some at1) =>
    match parseOverrides image (u8 image 9) at1 k with
    | (k1, none) => (k1, false)
    | (k1, some at2) => parseProfiles image (u8 image 8) at2 k1

/-! ### The end of a load (R121, R132, R134) -/

/-- The loader leaves LOADING for an end state: the limit timer stops and the memory is deselected; in ABSENT, BAD and
LATE nothing is kept, and in BAD and LATE the buffer is discarded (R121, R123, R124, R132). -/
def Loader.finish (l : Loader) (x : LoaderState) (k : Kept) : Loader :=
  { state := x, stage := none, limitTimer := false, selected := false, sent := [],
    buffer := if x = .bad ∨ x = .late then [] else l.buffer, kept := k }

/-- The cap the allocator takes (R78). -/
def Kept.cap (k : Kept) : Nat := k.capExt.getD Config.shadowEntries

/-- The load ends: the allocator takes the cap, the budget is settled, expiries that the world takes first are delivered,
and the waiting channels select, in the order the world gives and then in ascending order (R78, R94, R115, R134; log
entries 6 and 7). -/
def State.endLoad (s : State) (x : LoaderState) (k : Kept) (expired order : List Chan) : State :=
  let s1 := { s with loader := s.loader.finish x k, shadow := { s.shadow with cap := k.cap } }
  let s2 := s1.settleBudgets
  let s3 := expired.foldl (fun y c => y.deliverExpiry c) s2
  ((order ++ allChans).foldl (fun y c => y.selectIfWaiting c) s3).settle

end Sys2Proof.Machine
end

