-- ==== Sys2Proof/Machine/LoaderCommands.lean ====
section
/-! DEFINITION. The meanings of the Descriptor Loader's commands (chapter 8). -/

namespace Sys2Proof.Machine

def State.updLoader (s : State) (f : Loader → Loader) : State := { s with loader := f s.loader }

/-- The loader is LOADING at a stage. -/
def State.loadingAt (s : State) (x : LoadStage) : Bool := s.loader.state == .loading && s.loader.stage == some x

/-- The memory is ready: bit 0 of the status byte is 0, or the byte is 0xFF (R122). -/
def statusReady (status : Byte) : Bool := !status.getLsbD 0 || status == 0xFF#8

/-- STATUS_READ_COMPLETE (R122): ready starts the image read, with the memory selected; busy deselects it and waits. -/
def statusReadComplete (status : Byte) (s : State) : State :=
  if s.loadingAt .statusRead then
    if statusReady status then
      s.updLoader fun l => { l with stage := some .imageRead, selected := true, sent := imageReadCommand, buffer := [] }
    else s.updLoader fun l => { l with stage := some .statusWait, selected := false, sent := [] }
  else s

def execStatusReadComplete (status : Byte) (s : State) : Host.Outcome State Fault Refusal :=
  .next (statusReadComplete status s)

/-- STATUS_POLL_EXPIRY (R122): a new status read begins. -/
def statusPollExpiry (s : State) : State :=
  if s.loadingAt .statusWait then
    s.updLoader fun l => { l with stage := some .statusRead, selected := true, sent := statusReadCommand } else s

def execStatusPollExpiry (s : State) : Host.Outcome State Fault Refusal := .next (statusPollExpiry s)

/-- A load ends without a descriptor (R121, R123, R124, R132). -/
def State.loadWithout (s : State) (x : LoaderState) (order : List Chan) : State := s.endLoad x Kept.nothing [] order

/-- What the loader does with the bytes it then holds (R123): the signature test at two bytes, the length test at four,
and the end of reading at the total length. -/
def State.testHeader (s : State) (order : List Chan) : State :=
  let image := s.loader.buffer
  if image.length = 2 ∧ signatureGood image = false then s.loadWithout .absent order
  else if image.length = 4 ∧ (totalLength image < 16 ∨ 2048 < totalLength image) then s.loadWithout .bad order
  else if 4 ≤ image.length ∧ image.length = totalLength image then
    s.updLoader fun l => { l with stage := some .check, selected := false, sent := [] }
  else s

/-- DESCRIPTOR_BYTE (R123): the byte joins the load buffer, and the header is tested as its bytes arrive. -/
def descriptorByte (b : Byte) (order : List Chan) (s : State) : State :=
  if s.loadingAt .imageRead then (s.updLoader fun l => { l with buffer := l.buffer ++ [b] }).testHeader order else s

def execDescriptorByte (b : Byte) (order : List Chan) (s : State) : Host.Outcome State Fault Refusal :=
  .next (descriptorByte b order s)

/-- DESCRIPTOR_CHECK (R124): BAD on a mismatch, else on to parsing. -/
def descriptorCheck (order : List Chan) (s : State) : State :=
  if s.loadingAt .check then
    if checkGood s.loader.buffer then s.updLoader fun l => { l with stage := some .parse } else s.loadWithout .bad order
  else s

def execDescriptorCheck (order : List Chan) (s : State) : Host.Outcome State Fault Refusal :=
  .next (descriptorCheck order s)

/-- DESCRIPTOR_PARSE (R125): what the image holds is kept; VALID, or TRUNCATED at a malformed record. -/
def descriptorParse (expired order : List Chan) (s : State) : State :=
  if s.loadingAt .parse then
    let parsed := parseImage s.loader.buffer
    s.endLoad (if parsed.2 then .valid else .truncated) parsed.1 expired order
  else s

def execDescriptorParse (expired order : List Chan) (s : State) : Host.Outcome State Fault Refusal :=
  .next (descriptorParse expired order s)

/-- LOAD_LIMIT_EXPIRY (R132): a load still running ends LATE. -/
def loadLimitExpiry (order : List Chan) (s : State) : State :=
  if s.loader.state = .loading ∧ s.loader.limitTimer = true then s.loadWithout .late order else s

def execLoadLimitExpiry (order : List Chan) (s : State) : Host.Outcome State Fault Refusal :=
  .next (loadLimitExpiry order s)

end Sys2Proof.Machine
end

