-- ==== Sys2Proof/Machine/Ports.lean ====
section
/-! DEFINITION. The Request Port (chapter 9): credits, serving the queue, draining, and the escape detector. -/

namespace Sys2Proof.Machine

/-! ### Credits (R136, R138) -/

/-- Return one credit: a waiting GRANT at the end of the list absorbs it, else GRANT 1 is formed. A GRANT that stands
alone in the list and has begun to be sent absorbs nothing (R136). A waiting GRANT at 16 absorbs one more all the same: R136
gives n as 1 to 16 and says that n rises by one; DESIGN CHOICE (log entry 23). -/
def Port.returnCredit (p : Port) : Port :=
  let p1 := { p with credit := p.credit + 1 }
  match p.outbound.getLast? with
  | some (.grant n) =>
    if p.headBegun && decide (p.outbound.length = 1) then { p1 with outbound := p.outbound ++ [.grant 1] }
    else { p1 with outbound := p.outbound.dropLast ++ [.grant (n + 1)] }
  | _ => { p1 with outbound := p.outbound ++ [.grant 1] }

/-- Note that the head of the outbound list has begun to be sent, as the world says (log entry 5). -/
def Port.noteBegun (p : Port) (begun : Bool) : Port :=
  { p with headBegun := p.headBegun || (begun && !p.outbound.isEmpty) }

/-! ### Serving the head request (R11 to R16, R142) -/

/-- One more block of the request in service: its slot and its indications (R11). -/
def Service.add (v : Service) (slot : Option Block) (remapped shadow outside : Bool) : Service :=
  { v with slots := v.slots ++ [slot], remapped := v.remapped || remapped, shadow := v.shadow || shadow,
           outside := v.outside || outside }

def State.addSlot (s : State) (c : Chan) (slot : Option Block) (remapped shadow outside : Bool) : State :=
  s.updPort c fun p => { p with service := p.service.map fun v => v.add slot remapped shadow outside }

/-- A SHADOW block: a write replaces its 64 bytes of the buffer, a read takes them (R15, R84, R85). -/
def State.accessShadow (s : State) (c : Chan) (r : Request) (data : Block) (entry col : Nat) : State :=
  if r.isWrite then
    ({ s with shadow := { s.shadow with store := shadowWriteBlock s.shadow.store entry col data } }).addSlot c
      (some data) true true false
  else s.addSlot c (some (shadowReadBlock s.shadow.store entry col)) true true false

/-- A SHADOW block, after a report block of the channel that was handed to the store before it (R86). -/
def State.serveShadow (s : State) (c : Chan) (r : Request) (data : Block) (entry col : Nat) : State :=
  (s.storeReport c).accessShadow c r data entry col

/-- Serve block `i` of request `r`: translate it and hand it to memory, serve it at the shadow store, or settle it (R12,
R14 to R16). -/
def State.serveBlock (s : State) (c : Chan) (r : Request) (i : Nat) : State :=
  let ch := s.chan c
  let data := (r.data[i]?).getD 0
  let write := if r.isWrite then some data else none
  match ch.dest (r.addr + i) with
  | .direct bank row col => (s.handOver c (ch.blockOp .port write bank row col)).addSlot c none false false false
  | .spare bank row col => (s.handOver c (ch.blockOp .port write bank row col)).addSlot c none true false false
  | .shadow entry col => s.serveShadow c r data entry col
  | .outside => (s.updPort c fun p => { p with range := true }).addSlot c (some 0) false false true

/-- A service record with no block served. -/
def Service.start : Service := { slots := [], remapped := false, shadow := false, outside := false, formed := false }

/-- Service of the head request begins: its blocks are served in ascending order (R16, R142; log entry 15). -/
def State.beginService (s : State) (c : Chan) (r : Request) : State :=
  (List.range r.blocks).foldl (fun x i => x.serveBlock c r i)
    (s.updPort c fun p => { p with service := some Service.start })

/-- Every block of the request in service has its data, or has been written or discarded. -/
def Service.complete (v : Service) : Bool := v.slots.all Option.isSome

def Port.serviceComplete (p : Port) : Bool := (p.service.map Service.complete).getD false

/-- The completed memory block fills the first open slot: the Downstream Sequencer completes in hand-over order (R16). -/
def fillSlot (data : Block) : List (Option Block) → List (Option Block)
  | [] => []
  | none :: rest => some data :: rest
  | some b :: rest => some b :: fillSlot data rest

/-- The response of a completed read (R143, R144). -/
def Port.response (p : Port) (x : SeqState) (r : Request) (v : Service) : Message :=
  .response r.tag r.lenCode
    { phase := phaseOf x, rejected := p.rejected, range := v.outside || p.range, remapped := v.remapped,
      shadow := v.shadow, error := false }
    (v.slots.map fun o => o.getD 0)

/-- Form the response of the head read, once (R143, R145). -/
def State.formResponse (s : State) (c : Chan) (r : Request) : State :=
  let x := s.seqState c
  s.updPort c fun p =>
    match p.service with
    | some v =>
      if v.formed then p else { p.sendResponse (p.response x r v) with service := some { v with formed := true } }
    | none => p

/-- The head request leaves the queue: its credit returns if the channel is OPEN, and a waiting report block is
translated before the next request (R17, R138). -/
def State.requestLeaves (s : State) (c : Chan) : State :=
  let x := s.seqState c
  let s1 := s.updPort c fun p =>
    let p1 := { p with queue := p.queue.tail, service := none }
    if x = .opened then p1.returnCredit else p1
  s1.carryWaitingReport c

/-- States in which the queue is served (R142). -/
def SeqState.serves (x : SeqState) : Bool := x == .opened || x == .draining

/-- Begin the service of the head request if it has not begun. -/
def State.serviceHead (s : State) (c : Chan) (r : Request) : State :=
  if (s.chan c).port.service.isNone then s.beginService c r else s

/-- Serve the queue as far as it goes without another event: a write that is complete leaves and the next request's
service begins; a read that is complete has its response formed; an empty queue ends a drain (R107, R142, R143). -/
def State.serveQueue : Nat → State → Chan → State
  | 0, s, _ => s
  | fuel + 1, s, c =>
    if (s.seqState c).serves then
      match (s.chan c).port.queue with
      | [] => if s.seqState c = .draining then s.beginRetest c else s
      | r :: _ =>
        let s1 := s.serviceHead c r
        if (s1.chan c).port.serviceComplete then
          if r.isWrite then State.serveQueue fuel (s1.requestLeaves c) c else s1.formResponse c r
        else s1
    else s

/-- Steps enough for any queue. -/
def State.pump (s : State) (c : Chan) : State := State.serveQueue ((s.chan c).port.queue.length + 1) s c

/-! ### The escape detector (R147, R148) -/

/-- The next step state (R147), for a candidate whose word has not been taken as a fifth write. -/
def Detector.advance (d : Detector) (w : BitVec 64) : Detector :=
  match d with
  | .step1 => if isStepWord w 2 then .step2 else if isStepWord w 1 then .step1 else .idle
  | .step2 => if isStepWord w 3 then .step3 else if isStepWord w 1 then .step1 else .idle
  | .step3 => if isStepWord w 4 then .step4 else if isStepWord w 1 then .step1 else .idle
  | .idle | .step4 => if isStepWord w 1 then .step1 else .idle

/-- Where the detector moves at an accepted write, and the word of an escape taken (R147). -/
def Detector.see (d : Detector) (candidate : Bool) (w : BitVec 64) : Detector × Option (BitVec 64) :=
  if candidate then
    if d = .step4 ∧ escapeMarked w = true then (.idle, some w) else (d.advance w, none)
  else (.idle, none)

/-- A write is a candidate when it is one block at the channel's escape block (R147). -/
def Channel.isCandidate (ch : Channel) (r : Request) : Bool :=
  r.lenCode == 0 && ch.escapeBlock == some r.addr

/-- A retest escape naming channel `c`: taken only when it is OPEN; a drain whose queue is empty ends at once (R107). -/
def State.retestEscape (s : State) (c : Chan) : State :=
  if s.seqState c = .opened then
    ((s.setSeqState c .draining).updPort c fun p => { p with detector := .idle }).pump c
  else s

/-- An escape reaches its destination; an unknown code, or an operand that names no channel, is ignored (R148). -/
def State.takeEscape (s : State) (w : BitVec 64) : State :=
  match escapeCode w with
  | 1 => s.publish
  | 2 => if h : escapeOperand w < 4 then s.retestEscape ⟨escapeOperand w, h⟩ else s
  | 3 => s.acknowledgeFault
  | _ => s

/-- The detector considers an accepted write while it runs, and hands over an escape in the same step (R147, R148). -/
def State.detect (s : State) (p : Chan) (r : Request) : State :=
  if r.isWrite && strapEscapes s.strap && s.seqState p == .opened then
    let seen := (s.chan p).port.detector.see ((s.chan p).isCandidate r) (escapeWord r)
    let s1 := s.updPort p fun q => { q with detector := seen.1 }
    match seen.2 with
    | none => s1
    | some w => s1.takeEscape w
  else s

/-! ### Arrivals (R139) -/

/-- An accepted request joins the tail of the queue (R141). -/
def State.accept (s : State) (p : Chan) (r : Request) : State :=
  s.updPort p fun q => { q with queue := q.queue ++ [r] }

/-- A discard, and its credit when `back` (R139, R140). -/
def State.discard (s : State) (p : Chan) (back : Bool) : State :=
  s.updPort p fun q => if back then q.countDiscard.returnCredit else q.countDiscard

end Sys2Proof.Machine
end

