-- ==== Sys2Proof/Machine/PortCommands.lean ====
section
/-! DEFINITION. The meanings of the commands of the request ports and of the Report Writer: REQUEST_ARRIVAL,
PORT_BLOCK_COMPLETE, MESSAGE_SENT, REPORT_BLOCK_COMPLETE (chapters 9 and 10). -/

namespace Sys2Proof.Machine

/-- The arrival after its credit has been spent, `had` saying whether there was one: judged by the first line of R139. -/
def State.judgeArrival (s : State) (p : Chan) (had : Bool) (request : Option Request) : State :=
  if (s.seqState p).serves then
    if had then
      match request with
      | none => s.discard p (s.seqState p == .opened)
      | some r => ((s.accept p r).detect p r).pump p
    else s.discard p false
  else s.discard p false

/-- REQUEST_ARRIVAL (R139): the credit count falls, then the request is accepted or discarded and counted; arrivals while
reset is asserted are not taken at all. -/
def requestArrival (p : Chan) (header : Vector Byte 5) (data : List Block) (begun : Bool) (s : State) : State :=
  if s.inReset then s
  else
    let had := decide (0 < (s.chan p).port.credit)
    let s1 := s.updPort p fun q => { q.noteBegun begun with credit := q.credit - 1 }
    s1.judgeArrival p had (parseMessage header data)

def execRequestArrival (p : Chan) (header : Vector Byte 5) (data : List Block) (begun : Bool) (s : State) :
    Host.Outcome State Fault Refusal := .next (requestArrival p header data begun s)

/-- PORT_BLOCK_COMPLETE (R16): the port's operation at the head of the stream completes; its slot of the request in
service is filled, and the queue is served on. -/
def portBlockComplete (p : Chan) (data : Block) (begun : Bool) (s : State) : State :=
  match (s.chan p).ds.ops with
  | [] => s
  | op :: _ =>
    if op.owner = .port then
      let s1 := (s.completeHead p).updPort p fun q =>
        { q.noteBegun begun with
          service := q.service.map fun v => { v with slots := fillSlot (op.write.getD data) v.slots } }
      s1.pump p
    else s

def execPortBlockComplete (p : Chan) (data : Block) (begun : Bool) (s : State) : Host.Outcome State Fault Refusal :=
  .next (portBlockComplete p data begun s)

/-- The response of the head read has been sent: the read leaves, in CLOSING without credit and with the rest of the
queue answered next (R138, R146), else as any request and with the queue served on. -/
def State.readLeaves (s : State) (p : Chan) : State :=
  if s.seqState p = .closing then
    ((s.updPort p fun q => { q with queue := q.queue.tail, service := none }).closeQueue p).settle
  else (s.requestLeaves p).pump p

/-- MESSAGE_SENT (R136): the head of the outbound list has been sent; a read whose response ends leaves the queue. -/
def messageSent (p : Chan) (s : State) : State :=
  match (s.chan p).port.outbound with
  | [] => s
  | m :: rest =>
    let s1 := s.updPort p fun q => { q with outbound := rest, headBegun := false }
    if m.isResponse && (s.chan p).port.responseFormed then s1.readLeaves p else s1

def execMessageSent (p : Chan) (s : State) : Host.Outcome State Fault Refusal := .next (messageSent p s)

/-- The report operation at the head of a channel's stream completes: of the write in progress, or of an abandoned one
(R155, R156). -/
def State.reportOpComplete (s : State) (c : Chan) : State :=
  match (s.chan c).ds.ops.head?.map DsOp.owner with
  | some (.report true) =>
    match s.writer.write with
    | some w => if w.chan = c ∧ w.blockAt = .memory then (s.completeHead c).nextReportBlock w else s.completeHead c
    | none => s.completeHead c
  | some (.report false) => s.completeHead c
  | _ => s

/-- A report block for which no memory operation stands: at the Shadow Row Store, or settled. -/
def BlockAt.offMemory : BlockAt → Bool
  | .store _ _ | .settled => true
  | .waiting | .memory => false

/-- REPORT_BLOCK_COMPLETE (R155): a block at the Shadow Row Store is served and done (R85, R86), one settled before, or at
memory, is done. -/
def reportBlockComplete (c : Chan) (s : State) : State :=
  match s.writer.write with
  | some w =>
    if w.chan = c ∧ w.blockAt.offMemory = true then (s.storeReport c).nextReportBlock w else s.reportOpComplete c
  | none => s.reportOpComplete c

def execReportBlockComplete (c : Chan) (s : State) : Host.Outcome State Fault Refusal := .next (reportBlockComplete c s)

end Sys2Proof.Machine
end

