-- ==== Sys2Proof/Machine/ResetCommands.lean ====
section
/-! DEFINITION. The meanings of RESET_ASSERTION, RESET_RELEASE, the supply commands, IDENTITY_SAMPLE and
WIDTH_CHECK_OP_COMPLETE (chapter 6). -/

namespace Sys2Proof.Machine

/-- RESET_ASSERTION (R109): every block takes its reset state; the latched strap word and S stand until the next release
(R87, R110), and the supply-good inputs are the board's. -/
def resetAssertion (s : State) : State :=
  { State.reset with
    strap := s.strap, arbiter := { State.reset.arbiter with slots := s.arbiter.slots },
    chans := s.chans.map fun ch => Channel.reset ch.supplyGood, pending := s.pending }

def execResetAssertion (s : State) : Host.Outcome State Fault Refusal := .next (resetAssertion s)

/-- A channel begins its supply wait, which ends at once if its supply-good input is active (R89). -/
def State.beginSupplyWait (s : State) (c : Chan) : State :=
  if (s.chan c).supplyGood then s.enterIdentifying c else s.updSeq c fun q => { q with supplyWait := true }

/-- The loader at reset release: ABSENT without a descriptor, else its first status read and the limit timer (R122). -/
def Loader.release (l : Loader) (present : Bool) : Loader :=
  if present then
    { l with state := .loading, stage := some .statusRead, limitTimer := true, selected := true,
             sent := statusReadCommand }
  else { l with state := .absent }

/-- RESET_RELEASE (R109): the strap word is latched (R87), S taken (R110), the budget timers start (R116), the loader
starts or goes ABSENT (R122), and every channel begins its supply wait (R89). -/
def resetRelease (lanes : BitVec 8) (s : State) : State :=
  if s.inReset then
    let s1 := { s with inReset := false, strap := lanes, loader := s.loader.release (strapDescriptor lanes),
                       arbiter := { s.arbiter with slots := slotCount (strapSlotCode lanes) } }
    let s2 := allChans.foldl (fun x c => x.updSeq c fun q => { q with timer := timerUnder (strapBudget lanes) }) s1
    allChans.foldl (fun x c => x.beginSupplyWait c) s2
  else s

def execResetRelease (lanes : BitVec 8) (s : State) : Host.Outcome State Fault Refusal := .next (resetRelease lanes s)

/-- The supply-good input of a channel (R89). -/
def State.setSupply (s : State) (c : Chan) (good : Bool) : State :=
  s.updChan c fun ch => { ch with supplyGood := good }

/-- Whether a channel's supply wait is running (R89): not while it is held in POWERING. -/
def State.supplyWaiting (s : State) (c : Chan) : Bool :=
  s.seqState c == .powering && (s.chan c).seq.supplyWait

/-- SUPPLY_GOOD_RISE (R89): ends a supply wait with the note clear; elsewhere no effect but on the input (R102). -/
def supplyGoodRise (c : Chan) (s : State) : State :=
  if s.supplyWaiting c then (s.setSupply c true).enterIdentifying c else s.setSupply c true

def execSupplyGoodRise (c : Chan) (s : State) : Host.Outcome State Fault Refusal := .next (supplyGoodRise c s)

/-- SUPPLY_GOOD_FALL (R102): a change from active to inactive is a loss with reason SUPPLY_LOST where a loss can reach. -/
def supplyGoodFall (c : Chan) (s : State) : State :=
  if (s.chan c).supplyGood then (s.setSupply c false).lose c .supplyLost else s

def execSupplyGoodFall (c : Chan) (s : State) : Host.Outcome State Fault Refusal := .next (supplyGoodFall c s)

/-- SUPPLY_WAIT_EXPIRY (R89): the note is set and the channel enters IDENTIFYING; with no timer running, no effect. -/
def supplyWaitExpiry (c : Chan) (s : State) : State :=
  if s.supplyWaiting c then (s.updSeq c fun q => { q with supplyUnconfirmed := true }).enterIdentifying c else s

def execSupplyWaitExpiry (c : Chan) (s : State) : Host.Outcome State Fault Refusal := .next (supplyWaitExpiry c s)

/-- The fourth nibble has been accepted: the identity is assembled; 0xFFFF makes the channel ABSENT, any other value
starts the width check (R1, R90, R91). A report operation that a retest left at the Downstream Sequencer stands and completes
(R108, R156) also when the channel is now ABSENT, where R91 has it carry no operation; DESIGN CHOICE (log entry 27). -/
def State.identityRead (s : State) (c : Chan) (v : BitVec 16) : State :=
  if v = unpopulated then
    (s.updSeq c fun q => { q with identityRead := some v, ident := .idle, state := .absent }).settle
  else
    (s.updSeq c fun q => { q with identityRead := some v, ident := .widthCheck 1 0 }).handWidthOp c 1

/-- A nibble has been accepted: the next select value is driven (R90). After the fourth, the select lines keep the value
last driven: R90 says only what they show during attempts; DESIGN CHOICE (log entry 22). -/
def State.acceptNibble (s : State) (c : Chan) (select : Nat) (nibbles : List (BitVec 4)) : State :=
  match nibbles with
  | [n0, n1, n2, n3] => s.identityRead c (assembleIdentity n0 n1 n2 n3)
  | _ =>
    (s.updSeq c fun q => { q with ident := .reading (select + 1) 1 none nibbles }).updDs c fun d =>
      { d with select := select + 1 }

/-- IDENTITY_SAMPLE (R90): the first or the second sample of an attempt at the nibble of the current select value. Where the
read fails, a report operation that a retest left stands and completes; DESIGN CHOICE (log entry 27). -/
def identitySample (c : Chan) (nibble : BitVec 4) (s : State) : State :=
  match (s.chan c).seq.ident with
  | .reading select attempt none nibbles =>
    s.updSeq c fun q => { q with ident := .reading select attempt (some nibble) nibbles }
  | .reading select attempt (some first) nibbles =>
    if first = nibble then s.acceptNibble c select (nibbles ++ [nibble])
    else if attempt < Config.identityAttempts then
      s.updSeq c fun q => { q with ident := .reading select (attempt + 1) none nibbles }
    else ((s.updSeq c fun q => { q with ident := .idle }).failChannel c .identityUnstable).settle
  | .idle | .widthCheck _ _ => s

def execIdentitySample (c : Chan) (nibble : BitVec 4) (s : State) : Host.Outcome State Fault Refusal :=
  .next (identitySample c nibble s)

/-- The width is judged (R93): with a width the channel enters SELECTING, and selects at once unless the loader is
LOADING (R94); else it is FAILED WIDTH. -/
def State.judge (s : State) (c : Chan) (r1 r2 : Block) : State :=
  let s1 := s.updSeq c fun q => { q with ident := .idle }
  match judgeWidth r1 r2 with
  | none => (s1.failChannel c .width).settle
  | some w =>
    let s2 := (s1.updSeq c fun q => { q with width := some w, state := .selecting }).updDs c fun d =>
      { d with written := if w = .half then dropUpperLanes d.written else d.written }
    if s2.loader.state = .loading then s2 else (s2.selectChannel c).settle

/-- A live width-check operation has completed: the next is handed over, or the width is judged (R92, R93). -/
def State.widthStep (s : State) (c : Chan) (data : Block) : State :=
  match (s.chan c).seq.ident with
  | .widthCheck 1 r => (s.updSeq c fun q => { q with ident := .widthCheck 2 r }).handWidthOp c 2
  | .widthCheck 2 _ => (s.updSeq c fun q => { q with ident := .widthCheck 3 data }).handWidthOp c 3
  | .widthCheck 3 r => (s.updSeq c fun q => { q with ident := .widthCheck 4 r }).handWidthOp c 4
  | .widthCheck 4 r => s.judge c r data
  | _ => s

/-- WIDTH_CHECK_OP_COMPLETE (R92): the width-check operation at the head of the stream completes; a stopped check's data
is discarded. -/
def widthCheckOpComplete (c : Chan) (data : Block) (s : State) : State :=
  match (s.chan c).ds.ops.head?.map DsOp.owner with
  | some (.widthCheck true) => (s.completeHead c).widthStep c data
  | some (.widthCheck false) => s.completeHead c
  | _ => s

def execWidthCheckOpComplete (c : Chan) (data : Block) (s : State) : Host.Outcome State Fault Refusal :=
  .next (widthCheckOpComplete c data s)

end Sys2Proof.Machine
end

