-- ==== Sys2Proof/Machine/TestCommands.lean ====
section
/-! DEFINITION. The meanings of the commands of test and loss: BUDGET_EXPIRY, SWEEP_OPS_COMPLETE, PAUSE_EXPIRY,
SHADOW_CLAIM, ANALYSIS_COMPLETE, NO_RESPONSE. -/

namespace Sys2Proof.Machine

/-- BUDGET_EXPIRY (R116 to R120): only a running timer expires. -/
def budgetExpiry (c : Chan) (s : State) : State := s.deliverExpiry c

def execBudgetExpiry (c : Chan) (s : State) : Host.Outcome State Fault Refusal := .next (budgetExpiry c s)

/-- SWEEP_OPS_COMPLETE (R27): the operations of the sweep block at the head of the stream complete, and with the last of
them the March Engine moves on; the operations of an abandoned sweep complete without compare (R31, R32). -/
def sweepOpsComplete (c : Chan) (reads : List Block) (s : State) : State :=
  let ops := (s.chan c).ds.ops
  let s1 := State.completeSweepOps (sweepRun ops) s c reads
  if headIsLiveSweep ops then s1.advanceSweep c else s1

def execSweepOpsComplete (c : Chan) (reads : List Block) (s : State) : Host.Outcome State Fault Refusal :=
  .next (sweepOpsComplete c reads s)

/-- PAUSE_EXPIRY (R26): withholding ends and the next element begins, or the sweep completes; with no pause running, no
effect (R32). -/
def pauseExpiry (c : Chan) (s : State) : State :=
  match (s.chan c).march, (s.chan c).geometry with
  | some m, some g =>
    if m.pause.isSome then
      ((s.setMarch c (some { m with pause := none })).updDs c fun d => { d with refreshWithheld := false }).nextElement c
        { m with pause := none } g
    else s
  | _, _ => s

def execPauseExpiry (c : Chan) (s : State) : Host.Outcome State Fault Refusal := .next (pauseExpiry c s)

/-- SHADOW_CLAIM (R79): the allocator takes the claim that an analyser in CLAIMING has sent; with none sent, no effect
(R66). -/
def shadowClaim (c : Chan) (s : State) : State :=
  match (s.chan c).analyser with
  | some a =>
    match a.phase, a.candidates with
    | .claiming, row :: rest => s.answerClaim c a row rest
    | _, _ => s
  | none => s

def execShadowClaim (c : Chan) (s : State) : Host.Outcome State Fault Refusal := .next (shadowClaim c s)

/-- What the Channel Sequencer does at an analysis completion (R64, R97). -/
def State.afterAnalysis (s : State) (c : Chan) (bank : Nat) : State :=
  let banks := ((s.chan c).geometry.map Geometry.banks).getD 0
  if (s.chan c).seq.budgetExpired || decide (banks ≤ bank + 1) then (s.endTesting c).settle
  else (s.updSeq c fun q => { q with nextBank := bank + 1 }).requestSlot c

/-- ANALYSIS_COMPLETE (R64): an analyser with nothing left to treat returns to IDLE. -/
def analysisComplete (c : Chan) (s : State) : State :=
  match (s.chan c).analyser with
  | some a =>
    if s.seqState c = .analysing ∧ a.phase ≠ .claiming then (s.setAnalyser c none).afterAnalysis c a.bank else s
  | none => s

def execAnalysisComplete (c : Chan) (s : State) : Host.Outcome State Fault Refusal := .next (analysisComplete c s)

/-- NO_RESPONSE (R101): a read among the operations held got no data: every operation is abandoned and the channel is
lost where a loss can reach it (R102). With no read held, the event cannot come. -/
def noResponse (c : Chan) (s : State) : State :=
  if (s.chan c).ds.ops.any fun op => op.write.isNone then (s.dropOps c fun _ => true).lose c .noResponse else s

def execNoResponse (c : Chan) (s : State) : Host.Outcome State Fault Refusal := .next (noResponse c s)

end Sys2Proof.Machine
end

