-- ==== Sys2Proof/Machine/Dispatch.lean ====
section
/-! DEFINITION. The effect of each command on everything but the queue: one arm a command. -/

namespace Sys2Proof.Machine

def exec (i : Instr) (s : State) : Host.Outcome State Fault Refusal :=
  match i with
  | .resetAssertion => Sys2Proof.Machine.execResetAssertion s
  | .resetRelease lanes => Sys2Proof.Machine.execResetRelease lanes s
  | .supplyGoodRise c => Sys2Proof.Machine.execSupplyGoodRise c s
  | .supplyGoodFall c => Sys2Proof.Machine.execSupplyGoodFall c s
  | .supplyWaitExpiry c => Sys2Proof.Machine.execSupplyWaitExpiry c s
  | .identitySample c nibble => Sys2Proof.Machine.execIdentitySample c nibble s
  | .widthCheckOpComplete c data => Sys2Proof.Machine.execWidthCheckOpComplete c data s
  | .statusReadComplete status => Sys2Proof.Machine.execStatusReadComplete status s
  | .statusPollExpiry => Sys2Proof.Machine.execStatusPollExpiry s
  | .descriptorByte b order => Sys2Proof.Machine.execDescriptorByte b order s
  | .descriptorCheck order => Sys2Proof.Machine.execDescriptorCheck order s
  | .descriptorParse expired order => Sys2Proof.Machine.execDescriptorParse expired order s
  | .loadLimitExpiry order => Sys2Proof.Machine.execLoadLimitExpiry order s
  | .budgetExpiry c => Sys2Proof.Machine.execBudgetExpiry c s
  | .sweepOpsComplete c reads => Sys2Proof.Machine.execSweepOpsComplete c reads s
  | .pauseExpiry c => Sys2Proof.Machine.execPauseExpiry c s
  | .shadowClaim c => Sys2Proof.Machine.execShadowClaim c s
  | .analysisComplete c => Sys2Proof.Machine.execAnalysisComplete c s
  | .noResponse c => Sys2Proof.Machine.execNoResponse c s
  | .requestArrival p header data begun => Sys2Proof.Machine.execRequestArrival p header data begun s
  | .portBlockComplete p data begun => Sys2Proof.Machine.execPortBlockComplete p data begun s
  | .messageSent p => Sys2Proof.Machine.execMessageSent p s
  | .reportBlockComplete c => Sys2Proof.Machine.execReportBlockComplete c s

end Sys2Proof.Machine
end

