-- ==== Sys2Proof/Safety.lean ====
section
/-! DEFINITION. The terms statements about the KL4120 use: what a command leaves alone, what the report and the board
lines may do beside it, and the laws of the device that every command keeps. -/

namespace Sys2Proof.Machine

/-! ### Frames -/

/-- The command ends in `t`, and touches nothing but channel `c`'s blocks. -/
def OnlyChannel (c : Chan) (s t : State) : Prop :=
  t = { s with chans := t.chans } ∧ ∀ d, d ≠ c → t.chan d = s.chan d

/-- A channel keeps everything that the start or the end of a report write does not touch: a DONE channel may become OPEN
with credit count 16 and RESTORE 16 (R99), and report writes may join or leave its Downstream Sequencer (R155, R156). -/
def KeepsRecord (a b : Channel) : Prop :=
  b.supplyGood = a.supplyGood ∧ b.geometry = a.geometry ∧ b.remap = a.remap ∧ b.log = a.log ∧ b.march = a.march ∧
  b.analyser = a.analyser ∧ b.seq = { a.seq with state := b.seq.state } ∧
  (b.seq.state = a.seq.state ∧ b.port = a.port ∨
    a.seq.state = .done ∧ b.seq.state = .opened ∧
      b.port = { a.port with credit := 16, outbound := a.port.outbound ++ [.restore 16] }) ∧
  b.ds = { a.ds with ops := b.ds.ops } ∧
  b.ds.ops.filter (fun op => !op.isReport) = a.ds.ops.filter fun op => !op.isReport

/-- The same for a channel that may also have been granted the slot which `c` released: at the head of the wait queue, it
is TESTING its next bank with a fresh sweep (R97, R112). -/
def KeepsOrGranted (granted : Prop) (a b : Channel) : Prop :=
  KeepsRecord a b ∨
  granted ∧ b.seq = { a.seq with state := .testing, entered := a.seq.entered ++ [a.seq.nextBank] } ∧
    b.supplyGood = a.supplyGood ∧ b.geometry = a.geometry ∧ b.remap = a.remap ∧ b.log = a.log ∧
    b.analyser = a.analyser ∧ b.port = a.port

/-- The shared blocks keep what a channel's change of state does not touch; the Report Writer and READY may change. -/
def KeepsShared (s t : State) : Prop :=
  t.inReset = s.inReset ∧ t.strap = s.strap ∧ t.shadow = s.shadow ∧ t.loader = s.loader ∧ t.pending = s.pending ∧
  (s.board.ready = true → t.board.ready = true)

/-- The channel has taken the result FAILED with a reason, and FAULT is active (R69, R106, R158). -/
def FailedWith (t : State) (c : Chan) (why : Reason) : Prop :=
  (t.chan c).seq.state = .failed ∧ (t.chan c).seq.result = .failed ∧ (t.chan c).seq.reason = why ∧
  t.board.fault = true

/-- The channel keeps what a loss keeps (R50, R75, R103): geometry, Remap Table and Fail Log. -/
def KeepsRepairs (a b : Channel) : Prop := b.geometry = a.geometry ∧ b.remap = a.remap ∧ b.log = a.log

/-! ### Shapes that several statements share -/

/-- The operations that a Downstream Sequencer holds beside report writes, which may join, leave or turn into an abandoned
write's (R155, R156). -/
def Downstream.ownOps (d : Downstream) : List DsOp := d.ops.filter fun op => !op.isReport

/-- A Downstream Sequencer keeps everything but its report writes. -/
def KeepsStream (a b : Downstream) : Prop := b = { a with ops := b.ops } ∧ b.ownOps = a.ownOps

/-- The port of a channel that opens: credit count 16, and RESTORE 16 formed (R99, R137). -/
def portOpened (p : Port) : Port := { p with credit := 16, outbound := p.outbound ++ [.restore 16] }

/-- The port of a channel that has entered DONE under a strap word: with strap bit 5 at 0 it opens at that moment (R99). -/
def portWhenDone (strap : BitVec 8) (p : Port) : Port := if strapPublish strap then p else portOpened p

/-- Beside channel `c`, only what a report write's start or end, or READY, brings about. -/
def Around (c : Chan) (s t : State) : Prop :=
  KeepsShared s t ∧ t.arbiter = s.arbiter ∧ ∀ d, d ≠ c → KeepsRecord (s.chan d) (t.chan d)

/-- The arbiter after channel `c`, a holder, has released its slot: the head of the wait queue holds it, or it is free
(R112). -/
def slotPassed (a : Arbiter) (c : Chan) : Arbiter :=
  { a with holders := (a.holders.filter fun h => h != c) ++ a.waitQueue.head?.toList, waitQueue := a.waitQueue.tail }

/-- Channel `c` leaves DONE, OPEN and DRAINING in this step. A report write placed on it is abandoned, and so ends: every
other channel of its start set that is DONE opens, and the writer hands over no further block on `c`; it is IDLE unless a
publish is pending or a channel that was not in the start set waits (R99, R155, R156). -/
def WriteAbandoned (s t : State) (c : Chan) : Prop :=
  ∀ w, s.writer.write = some w → w.chan = c →
    (∀ d ∈ w.startSet, d ≠ c → s.seqState d = .done →
      (t.chan d).seq = { (s.chan d).seq with state := .opened } ∧
      (t.chan d).port = { (s.chan d).port with credit := 16, outbound := (s.chan d).port.outbound ++ [.restore 16] }) ∧
    (∀ w', t.writer.write = some w' → w'.chan ≠ c) ∧
    (s.writer.pendingPublish = false → (∀ d, d ≠ c → s.seqState d = .done → d ∈ w.startSet) → t.writer.write = none)

/-- What a loss other than a no-response leaves at a Downstream Sequencer, by the state it met: a stopped width check's and
an abandoned sweep's operations complete with their results discarded, and withholding ends (R31, R92); in DONE the report
operations are abandoned, their writes in doubt (R156). That in IDENTIFYING a report operation left by a retest stands is
the model's choice (log entry 26), as is that the select lines stand (log entry 22). -/
def Downstream.afterLoss (x : SeqState) (d : Downstream) : Downstream :=
  match x with
  | .identifying => { d with ops := d.ops.map DsOp.discardWidth }
  | .testing => { d with ops := d.ops.map DsOp.discardSweep, refreshWithheld := false }
  | .done => { d with ops := d.ops.filter fun op => !op.isReport,
                      written := (d.ops.filter DsOp.isReport).foldl (fun m op => dramDoubt op m) d.written }
  | .powering | .selecting | .queued | .analysing | .opened | .draining | .closing | .failed | .absent => d

/-- A loss has taken channel `c` from a state before OPEN to FAILED: its identity read, sweep or analysis is given up, and
everything else its blocks hold stands (R97, R103, R156). -/
def LostBeforeOpening (s t : State) (c : Chan) (why : Reason) : Prop :=
  t.chan c = { s.chan c with
    supplyGood := (t.chan c).supplyGood,
    seq := { (s.chan c).seq with state := .failed, result := .failed, reason := why, ident := .idle },
    march := none, analyser := none, ds := (t.chan c).ds } ∧
  FailedWith t c why ∧ KeepsRepairs (s.chan c) (t.chan c) ∧ KeepsShared s t ∧ WriteAbandoned s t c ∧
  t.arbiter = (if s.seqState c = .testing then slotPassed s.arbiter c
               else { s.arbiter with waitQueue := s.arbiter.waitQueue.filter fun h => h != c }) ∧
  ∀ d, d ≠ c →
    KeepsOrGranted (s.seqState c = .testing ∧ s.arbiter.waitQueue.head? = some d) (s.chan d) (t.chan d)

/-- The requests that CLOSING leaves in a queue: the writes at its head are dropped, and the first read waits for its
response to be sent (R104, R138, R146; log entry 8). -/
def closingQueue (p : Port) : List Request :=
  if p.responseFormed then p.queue else p.queue.dropWhile Request.isWrite

/-- The error response to a read in CLOSING: its tag, phase 3, the pending flags, error set, n zero blocks (R144, R146). -/
def closingResponse (p : Port) (r : Request) : Message :=
  .response r.tag r.lenCode
    { phase := 3, rejected := p.rejected, range := p.range, remapped := false, shadow := false, error := true }
    (List.replicate (r.lenCode + 1) 0)

/-- A loss has taken channel `c` out of OPEN or DRAINING (R101, R104, R146, R156): what its Downstream Sequencer held is
abandoned, the writes among it in doubt. -/
def LostWhileOpen (s t : State) (c : Chan) (why : Reason) : Prop :=
  let p := (s.chan c).port
  let p' := (t.chan c).port
  t.chan c = { s.chan c with
    supplyGood := (t.chan c).supplyGood,
    seq := { (s.chan c).seq with
      state := if closingQueue p = [] then .failed else .closing, result := .failed, reason := why },
    ds := { (s.chan c).ds with
      ops := [], written := (s.chan c).ds.ops.foldl (fun m op => dramDoubt op m) (s.chan c).ds.written },
    port := p' } ∧
  t.board.fault = true ∧
  (p.responseFormed = true → p' = { p with detector := .idle }) ∧
  (p.responseFormed = false →
    (closingQueue p = [] → p' = { p with detector := .idle, queue := [], service := none }) ∧
    ∀ r, (closingQueue p).head? = some r →
      p' = { p with
        detector := .idle, queue := closingQueue p, rejected := false, range := false,
        outbound := p.outbound ++ [closingResponse p r], service := p'.service } ∧
      p'.responseFormed = true) ∧
  WriteAbandoned s t c ∧ Around c s t

/-- The settled budget duration in ms under a strap word and the kept results of a load (R115). -/
def budgetDuration (strap : BitVec 8) (ended : LoaderState) (k : Kept) : Option Nat :=
  match (if ended = .valid ∨ ended = .truncated then k.budgetExt else none) with
  | some 0 | none =>
    if strap.extractLsb' 3 2 = 3 then some 800 else if strap.extractLsb' 3 2 = 2 then some 400
    else if strap.extractLsb' 3 2 = 1 then some 1600 else none
  | some v => some (10 * v)

/-- A timer that is counting takes the settled duration as its limit; the others stand (R115). -/
def timerSettled (limit : Option Nat) : Timer → Timer
  | .running _ | .unlimited => match limit with
                               | some ms => .running ms
                               | none => .unlimited
  | .stopped => .stopped
  | .expired => .expired

/-- The sweep of `bank` has started on channel `c`: element 1, pass 1, with the operations of its first block handed over
behind those that the Downstream Sequencer holds (R27, R31). -/
def SweepStarted (s t : State) (c : Chan) (bank : Nat) (g : Geometry) : Prop :=
  let m := Sweep.start (t.chan c).seq.march bank g
  (t.chan c).march = some m ∧ (t.chan c).ds = { (s.chan c).ds with ops := (t.chan c).ds.ops } ∧
  (t.chan c).ds.ownOps = (s.chan c).ds.ownOps ++ m.blockOps g

/-- Channel `c` has entered DONE, and waits for the report or has opened, as it must with strap bit 5 at 0 (R99, R137). -/
def OpensOrWaits (s t : State) (c : Chan) : Prop :=
  ((t.chan c).seq.state = .done ∧ (t.chan c).port = (s.chan c).port ∨
    (t.chan c).seq.state = .opened ∧ (t.chan c).port = portOpened (s.chan c).port) ∧
  (strapPublish s.strap = false → (t.chan c).seq.state = .opened)

/-- A channel that waited in SELECTING has made its selection at the load's end (R94 to R96). -/
def SelectedByLoad (s t : State) (c : Chan) (v : BitVec 16) (w : Width) : Prop :=
  let eff := (t.loader.aliasFor c).getD v
  let chosen : Sequencer :=
    { (s.chan c).seq with
      timer := (t.chan c).seq.timer, effective := some eff, aliasUsed := (t.loader.aliasFor c).isSome }
  (t.chan c).log = (s.chan c).log ∧ (t.chan c).remap = (s.chan c).remap ∧
  (decodeIdentity eff w = none →
    FailedWith t c .geometry ∧ (t.chan c).geometry = (s.chan c).geometry ∧ (t.chan c).port = (s.chan c).port ∧
    (t.chan c).seq = { chosen with state := .failed, result := .failed, reason := .geometry }) ∧
  ∀ g, decodeIdentity eff w = some g →
    (t.chan c).geometry = some g ∧
    (strapSlotCode s.strap = 0 ∨ t.loader.skips c = true →
      (t.chan c).seq = { chosen with
        profile := t.loader.profileFor eff, state := (t.chan c).seq.state, result := .untested, reason := .unset } ∧
      t.board.fault = true ∧ OpensOrWaits s t c) ∧
    (strapSlotCode s.strap ≠ 0 → t.loader.skips c = false → (t.chan c).port = (s.chan c).port ∧
      ((t.chan c).seq = { chosen with
            profile := t.loader.profileFor eff, nextBank := 0, state := .testing, entered := (s.chan c).seq.entered ++ [0] } ∧
          c ∈ t.arbiter.holders ∧ SweepStarted s t c 0 g ∨
        (t.chan c).seq = { chosen with profile := t.loader.profileFor eff, nextBank := 0, state := .queued } ∧
          c ∈ t.arbiter.waitQueue ∧ KeepsStream (s.chan c).ds (t.chan c).ds))

/-- A channel that waited in SELECTING has selected on the identity `v` as read, without the loader (R118). -/
def SelectedUnread (s t : State) (c : Chan) (v : BitVec 16) (w : Width) : Prop :=
  let chosen : Sequencer := { (s.chan c).seq with timer := .expired, effective := some v, aliasUsed := false }
  (t.chan c).log = (s.chan c).log ∧ (t.chan c).remap = (s.chan c).remap ∧
  (decodeIdentity v w = none →
    FailedWith t c .geometry ∧ (t.chan c).geometry = (s.chan c).geometry ∧ (t.chan c).port = (s.chan c).port ∧
    (t.chan c).seq = { chosen with state := .failed, result := .failed, reason := .geometry }) ∧
  ∀ g, decodeIdentity v w = some g →
    (t.chan c).geometry = some g ∧ t.board.fault = true ∧ OpensOrWaits s t c ∧
    (t.chan c).seq = { chosen with
      profile := none, state := (t.chan c).seq.state, result := .untested, reason := .unset }

/-- The load's end settles a limit for channel `c`'s timer, and its expiry is taken before the channels select (R94, R115,
R118; the world's choice, log entry 7). -/
def ExpiresAtLoad (s : State) (x : LoaderState) (k : Kept) (expired : List Chan) (c : Chan) : Prop :=
  c ∈ expired ∧ ∃ ms, timerSettled (budgetDuration s.strap x k) (s.chan c).seq.timer = .running ms

/-- The load has ended in state `x` with the results `k`, the expiries at `expired` taken first (R78, R94, R115, R117, R118,
R120, R121, R134). -/
def LoadEnded (s t : State) (x : LoaderState) (k : Kept) (expired : List Chan) : Prop :=
  let expires := ExpiresAtLoad s x k expired
  t.loader.state = x ∧ t.loader.kept = k ∧ t.loader.stage = none ∧ t.loader.limitTimer = false ∧
  t.loader.selected = false ∧ (x = .bad ∨ x = .late → t.loader.buffer = []) ∧
  t.shadow.cap = k.capExt.getD 32 ∧ t.shadow.holders = s.shadow.holders ∧ t.strap = s.strap ∧ t.inReset = s.inReset ∧
  t.pending = s.pending ∧
  (∀ c, (expires c → (t.chan c).seq.timer = .expired) ∧
    (¬expires c → (t.chan c).seq.timer = timerSettled (budgetDuration s.strap x k) (s.chan c).seq.timer)) ∧
  (∀ c v w, s.seqState c = .selecting → (s.chan c).seq.identityRead = some v → (s.chan c).seq.width = some w →
    (expires c → SelectedUnread s t c v w) ∧ (¬expires c → SelectedByLoad s t c v w)) ∧
  (∀ c, expires c → s.seqState c = .powering ∨ s.seqState c = .identifying →
    FailedWith t c .notReady ∧ KeepsRepairs (s.chan c) (t.chan c) ∧ (t.chan c).port = (s.chan c).port ∧
    (t.chan c).seq = { (s.chan c).seq with
      timer := .expired, state := .failed, result := .failed, reason := .notReady,
      supplyWait := decide (s.seqState c = .identifying) && (s.chan c).seq.supplyWait,
      ident := if s.seqState c = .identifying then .idle else (s.chan c).seq.ident }) ∧
  ∀ c, s.seqState c ≠ .selecting → ¬(expires c ∧ (s.seqState c = .powering ∨ s.seqState c = .identifying)) →
    KeepsRecord { s.chan c with seq := { (s.chan c).seq with timer := (t.chan c).seq.timer } } (t.chan c)

/-- Channel `c` has left TESTING for ANALYSING, its slot passed on, with the given outcome (R53, R97, R112), and its analyser
has worked on the Fail Log `log` and the causes `causes` as far as its first claim or its end: the shadow pool, the report,
the board lines and every channel but the one granted stand. Its profile, its identity and its next bank stand, and so the
thresholds in force. -/
def SweepEnded (s t : State) (c : Chan) (log : FailLog) (causes : Causes) (complete : Bool) (bank : Nat) : Prop :=
  t.chan c = Channel.beginAnalysis
    { t.chan c with log := log, remap := (s.chan c).remap, seq := { (t.chan c).seq with causes := causes } }
    bank complete s.shadow.cap ∧
  (t.chan c).seq.state = .analysing ∧ (t.chan c).march = none ∧ (t.chan c).ds.refreshWithheld = false ∧
  (∃ a, (t.chan c).analyser = some a ∧ a.bank = bank ∧ a.complete = complete ∧ a.cap = s.shadow.cap) ∧
  (t.chan c).seq.entered = (s.chan c).seq.entered ∧ (t.chan c).geometry = (s.chan c).geometry ∧
  (t.chan c).port = (s.chan c).port ∧
  (complete = false → (t.chan c).remap = (s.chan c).remap) ∧ (t.chan c).supplyGood = (s.chan c).supplyGood ∧
  (t.chan c).seq = { (s.chan c).seq with
    state := .analysing, causes := (t.chan c).seq.causes, fullySwept := (t.chan c).seq.fullySwept,
    budgetExpired := (t.chan c).seq.budgetExpired, timer := (t.chan c).seq.timer } ∧
  (t.chan c).ds = { (s.chan c).ds with
    ops := (t.chan c).ds.ops, refreshWithheld := false, written := (t.chan c).ds.written } ∧
  t = { s with chans := t.chans, arbiter := slotPassed s.arbiter c } ∧
  ∀ d, d ≠ c → s.arbiter.waitQueue.head? ≠ some d → t.chan d = s.chan d

/-- What an analysis in the context `a` makes of channel `ch`, whose primary candidates still to be treated are the rows
`primary`, up to its next claim or its end (R58 to R63, R65). While the bank is complete the candidates take, in their order,
the lowest spares that neither failed nor were given out, each REPAIRED_SPARE with its remap entry. The first candidate left
waits for its shadow claim while the channel holds fewer entries than its cap; with the cap reached those left become
UNREPAIRABLE. Then, with the repair-marginal flag, the other PENDING records of the bank take the spares left, and the rest
become MARGINAL. -/
def Treated (ch : Channel) (a : Analysis) (primary : List Nat) (out : Channel) : Prop :=
  let isPending (r : FailRecord) : Prop := r.bank = a.bank ∧ r.status = .pending
  let recs := ch.log.records.filter fun r => r.bank = a.bank ∧ r.status = .pending
  let marginal := (byCount (recs.filter fun r => r.row ∉ primary)).map FailRecord.row
  let spares := if a.complete = true then
      (List.range ch.spares).filter fun k => (a.bank, k) ∉ ch.log.failedSpares ∧ k ∉ a.given
    else []
  let held := (ch.remap.filter fun x => x.target.isShadow).length
  let entry (x : Nat × Nat) : RemapEntry := { bank := a.bank, row := x.1, target := .spare x.2 }
  let left := primary.drop spares.length
  let given := (spares.take primary.length).reverse ++ a.given
  out = { ch with log := out.log, remap := out.remap, seq := out.seq, analyser := out.analyser } ∧
  out.log.failedSpares = ch.log.failedSpares ∧
  (left ≠ [] → held < a.cap →
    out.remap = ch.remap ++ (primary.zip spares).map entry ∧ out.seq = ch.seq ∧
    out.analyser = some { a with phase := .claiming, candidates := left, given := given } ∧
    List.Forall₂ (fun (r r' : FailRecord) =>
      (∀ k, isPending r → (r.row, k) ∈ primary.zip spares →
        r' = { r with status := .repairedSpare, target := some k }) ∧
      (¬isPending r ∨ r.row ∉ primary.take spares.length → r' = r)) ch.log.records out.log.records) ∧
  (left = [] ∨ a.cap ≤ held →
    let more := if a.repairMarginal = true then marginal.zip (spares.drop primary.length) else []
    out.remap = ch.remap ++ (primary.zip spares ++ more).map entry ∧
    out.seq = { ch.seq with causes := { ch.seq.causes with
      unrepairable := ch.seq.causes.unrepairable || !left.isEmpty } } ∧
    out.analyser = some { a with phase := .marginal, candidates := [], given := (more.map Prod.snd).reverse ++ given } ∧
    List.Forall₂ (fun (r r' : FailRecord) =>
      (∀ k, isPending r → (r.row, k) ∈ primary.zip spares ++ more →
        r' = { r with status := .repairedSpare, target := some k }) ∧
      (isPending r → r.row ∈ left → r' = { r with status := .unrepairable, target := none }) ∧
      (isPending r → r.row ∉ primary → r.row ∉ more.map Prod.fst →
        r' = { r with status := .marginal, target := none }) ∧
      (¬isPending r → r' = r)) ch.log.records out.log.records)

/-- The channel at the head of the wait queue has been granted the slot which `c` released: it is TESTING its next bank,
at the first block of element 1 (R27, R97, R111). -/
def HeadGranted (s t : State) : Prop :=
  ∀ d, s.arbiter.waitQueue.head? = some d →
    (t.chan d).seq = { (s.chan d).seq with state := .testing,
                                           entered := (s.chan d).seq.entered ++ [(s.chan d).seq.nextBank] } ∧
    ∀ g, (s.chan d).geometry = some g →
      let m := Sweep.start (s.chan d).seq.march (s.chan d).seq.nextBank g
      t.chan d = { s.chan d with seq := (t.chan d).seq, march := some m,
                                 ds := { (s.chan d).ds with ops := (s.chan d).ds.ops ++ m.blockOps g } }

/-- What a list of completed operations leaves in the record of DRAM writes (R35). -/
def landAll (ops : List DsOp) (m : List Host.Cell) : List Host.Cell :=
  ops.foldl (fun w op => match op.write with
                         | some data => dramLand op data w
                         | none => w) m

/-- The fail events that the reads of the sweep's current block bring, in order: one for each read whose data differs from
the expected value in some column (R29, R30). -/
def Sweep.events (m : Sweep) (g : Geometry) (e : Element) (strap : BitVec 8) (reads : List Block) : List FailEvent :=
  ((e.applied.filter fun op => !op.writes).zip reads).filterMap fun x =>
    let expected := patternBlock g.width e.background m.row m.col x.1.inverts
    if failingColumns g.width m.col x.2 expected = [] then none
    else some { bank := m.bank, row := m.row, columns := failingColumns g.width m.col x.2 expected,
                lanes := failingLanes g.width x.2 expected, element := m.element,
                afterPause := afterPause strap m.march m.element }

/-- The Fail Log after it has taken a list of events, and whether one of them was answered with overflow (R39, R47). -/
def FailLog.takeAll (l : FailLog) (visibleRows : Nat) (events : List FailEvent) : FailLog × Bool :=
  events.foldl (fun x ev => ((x.1.take visibleRows ev).1, x.2 || (x.1.take visibleRows ev).2)) (l, false)

/-- The number of reads among the operations of an element. -/
def Element.readCount (e : Element) : Nat := (e.applied.filter fun op => !op.writes).length

/-- The data that the reads of a block return when every one of them passes (R20, R29). -/
def expectedReads (w : Width) (e : Element) (row col : Nat) : List Block :=
  (e.applied.filter fun op => !op.writes).map fun op => patternBlock w e.background row col op.inverts

/-- The operation that a port block brings to the Downstream Sequencer: none for a SHADOW or OUTSIDE block (R12, R16). -/
def portOp (ch : Channel) (write : Option Block) (a : Nat) : Option DsOp :=
  match ch.dest a with
  | .direct bank row col | .spare bank row col =>
    some { owner := .port, write := write, bank := bank, row := row, col := col, layout := ch.layout }
  | .shadow _ _ | .outside => none

/-- Block `i` of a request's data. -/
def Request.block (r : Request) (i : Nat) : Block := (r.data[i]?).getD 0

/-- The operations that a request's blocks bring to the Downstream Sequencer, in ascending block order (R16). -/
def requestOps (ch : Channel) (r : Request) : List DsOp :=
  (List.range (r.lenCode + 1)).filterMap fun i => portOp ch (if r.isWrite then some (r.block i) else none) (r.addr + i)

/-- The slots of a request once its blocks have been translated (R16): none for a block at memory; a SHADOW read block has
its buffer's bytes, an OUTSIDE block zeros. -/
def requestSlots (store : List Host.Cell) (ch : Channel) (r : Request) : List (Option Block) :=
  (List.range (r.lenCode + 1)).map fun i =>
    match ch.dest (r.addr + i) with
    | .direct _ _ _ | .spare _ _ _ => none
    | .shadow e col => some (if r.isWrite then r.block i else shadowReadBlock store e col)
    | .outside => some 0

/-- The shadow store once a request's SHADOW write blocks are in it (R15, R85). -/
def requestStore (store : List Host.Cell) (ch : Channel) (r : Request) : List Host.Cell :=
  (List.range (r.lenCode + 1)).foldl (fun m i =>
    match ch.dest (r.addr + i) with
    | .shadow e col => if r.isWrite then shadowWriteBlock m e col (r.block i) else m
    | .direct _ _ _ | .spare _ _ _ | .outside => m) store

/-- The indications of a block (R11). -/
def isRemapped (ch : Channel) (a : Nat) : Bool :=
  match ch.dest a with
  | .spare _ _ _ | .shadow _ _ => true
  | .direct _ _ _ | .outside => false

def isShadowed (ch : Channel) (a : Nat) : Bool :=
  match ch.dest a with
  | .shadow _ _ => true
  | _ => false

def isOutside (ch : Channel) (a : Nat) : Bool := !decide (a < ch.visibleBlocks)

/-- The block addresses of a request (R11). -/
def addresses (r : Request) : List Nat := (List.range (r.lenCode + 1)).map fun i => r.addr + i

/-- The outbound list once a credit has been returned (R136): a GRANT last in the list, and not being sent, absorbs it. -/
def creditReturned (begun : Bool) (l : List Message) : List Message :=
  match l.getLast? with
  | some (.grant n) => if begun = true ∧ l.length = 1 then l ++ [.grant 1] else l.dropLast ++ [.grant (n + 1)]
  | _ => l ++ [.grant 1]

/-- A port whose head request is waiting, for memory or for its response to be sent: serving the queue changes nothing. -/
def Port.headWaits (p : Port) : Prop :=
  ∃ r rest v, p.queue = r :: rest ∧ p.service = some v ∧ (none ∈ v.slots ∨ v.formed = true ∧ r.isWrite = false)

/-- The service of request `r`, at the head of port `p`'s queue, has begun: every block is translated (R11 to R16, R84 to
R86, R142 to R145). If a block is SHADOW, the store serves the channel's report block that was handed to it before. A read
with nothing at memory has its response formed. -/
def ServiceBegun (s t : State) (p : Chan) (r : Request) : Prop :=
  let ch := s.chan p
  let q := ch.port
  let remapped := (addresses r).any (isRemapped ch)
  let shadowed := (addresses r).any (isShadowed ch)
  let outside := (addresses r).any (isOutside ch)
  let s' := if shadowed then s.storeReport p else s
  let slots := requestSlots s'.shadow.store ch r
  let service (formed : Bool) : Service :=
    { slots := slots, remapped := remapped, shadow := shadowed, outside := outside, formed := formed }
  t = { s' with chans := t.chans, shadow := { s.shadow with store := requestStore s'.shadow.store ch r } } ∧
  (∀ d, d ≠ p → t.chan d = s.chan d) ∧
  t.chan p = { ch with
    ds := { ch.ds with ops := ch.ds.ops ++ requestOps ch r },
    port :=
      if r.isWrite = true ∨ none ∈ slots then
        { q with service := some (service false), range := q.range || outside }
      else
        { q with
          service := some (service true), rejected := false, range := false,
          outbound := q.outbound ++
            [.response r.tag r.lenCode
              { phase := if s.seqState p = .opened then 1 else 2, rejected := q.rejected, range := q.range || outside,
                remapped := remapped, shadow := shadowed, error := false }
              (slots.map fun o => o.getD 0)] } }

/-- The head of port `p`'s queue leaves: in OPEN its credit returns (R138). -/
def leaves (s : State) (p : Chan) : State :=
  s.updPort p fun q =>
    { q with
      queue := q.queue.tail, service := none,
      credit := if s.seqState p = .opened then q.credit + 1 else q.credit,
      outbound := if s.seqState p = .opened then creditReturned q.headBegun q.outbound else q.outbound }

/-- Report block `w.index` of write `w` has been translated like a controller write of length 1 (R17): it joins the
Downstream Sequencer, is handed to the Shadow Row Store, or is discarded. -/
def BlockCarried (s t : State) (w : Write) : Prop :=
  let ch := s.chan w.chan
  let a := w.base + w.index
  t = { s with chans := t.chans, writer := t.writer } ∧ (∀ d, d ≠ w.chan → t.chan d = s.chan d) ∧
  t.writer.pendingPublish = s.writer.pendingPublish ∧
  (∀ o, portOp ch (some w.data) a = some o →
    t.chan w.chan = { ch with ds := { ch.ds with ops := ch.ds.ops ++ [{ o with owner := .report true }] } } ∧
    t.writer.write = some { w with blockAt := .memory }) ∧
  (∀ e col, ch.dest a = .shadow e col →
    t.chan w.chan = ch ∧ t.writer.write = some { w with blockAt := .store e col }) ∧
  (ch.dest a = .outside → t.chan w.chan = ch ∧ t.writer.write = some { w with blockAt := .settled })

/-- A report block that waits on channel `p` is translated before the next request's service begins (R17). -/
def ReportFirst (s t : State) (p : Chan) : Prop :=
  (∀ w, s.writer.write = some w → w.chan = p → w.blockAt = .waiting → BlockCarried s t w) ∧
  ((∀ w, s.writer.write = some w → w.chan = p → w.blockAt ≠ .waiting) → t = s)

/-- The current block of write `w` is done with, and what that leaves of the placed channel's operations and record of DRAM
writes, and of the shadow buffers (R85, R155): at memory, at the Shadow Row Store, which serves it now, or settled
before. -/
def BlockDone (s : State) (w : Write) (ops : List DsOp) (written : List Host.Cell) (shadow : Shadow) : Prop :=
  let ds := (s.chan w.chan).ds
  (w.blockAt = .memory ∧ ∃ op block, ds.ops = op :: ops ∧ op.owner = .report true ∧ op.write = some block ∧
    written = dramLand op block ds.written ∧ shadow = s.shadow) ∨
  (∃ e col, w.blockAt = .store e col ∧ ops = ds.ops ∧ written = ds.written ∧
    shadow = { s.shadow with store := shadowWriteBlock s.shadow.store e col w.data }) ∨
  (w.blockAt = .settled ∧ ops = ds.ops ∧ written = ds.written ∧ shadow = s.shadow)

/-- Where a write goes (R153): the report channel, or else the lowest channel that is DONE or OPEN. -/
def Placed (s : State) (c : Chan) : Prop :=
  let open' (d : Chan) : Prop := s.seqState d = .done ∨ s.seqState d = .opened
  open' c ∧ (c = s.loader.kept.reportChannel ∨ ¬open' s.loader.kept.reportChannel ∧ ∀ d < c, ¬open' d)

/-- The states in which a channel is testing in the sense of R152. -/
def testingStates : List SeqState := [.powering, .identifying, .selecting, .queued, .testing, .analysing]

/-- A report write starts on channel `c` (R152 to R154): at the report offset if the area fits, with the report as it stands,
the channels then DONE as its start set, and its first block waiting behind the requests of the port or translated at
once (R17). -/
def WriteStarted (s t : State) (c : Chan) : Prop :=
  ∃ w : Write, w.chan = c ∧
    w.base = (if s.loader.kept.reportOffset * 1024 + 128 ≤ (s.chan c).visibleBlocks
              then s.loader.kept.reportOffset * 1024 else 0) ∧
    w.blocks = s.reportBlocks ∧ w.index = 0 ∧ w.blockAt = .waiting ∧ (∀ d, d ∈ w.startSet ↔ s.seqState d = .done) ∧
    ((s.chan c).port.queue ≠ [] → t = { s with writer := { write := some w, pendingPublish := false } }) ∧
    ((s.chan c).port.queue = [] → BlockCarried { s with writer := { s.writer with pendingPublish := false } } t w)

/-- The retest of channel `c` begins (R81, R86, R108, R156): all of one step. A report write on the channel is abandoned: its
block at memory completes ahead of the width check, and one that the Shadow Row Store has not served is discarded. The port
keeps all but its credit count: the pending flags, the rejected counter and the outbound list stand (R140, R146). -/
def RetestBegun (s t : State) (c : Chan) : Prop :=
  t.chan c = { s.chan c with
    remap := [], log := { records := [], failedSpares := [] }, geometry := none,
    seq := { Sequencer.reset with
      state := .identifying, ident := .reading 0 1 none [],
      supplyUnconfirmed := (s.chan c).seq.supplyUnconfirmed,
      timer := timerSettled (budgetDuration s.strap s.loader.state s.loader.kept) .unlimited },
    port := { (s.chan c).port with credit := 0 },
    ds := { (s.chan c).ds with
      select := 0, ops := if s.writer.write.map Write.chan = some c then (s.chan c).ds.ops.map DsOp.discardReport
                          else (s.chan c).ds.ops } } ∧
  (t.chan c).port.queue = [] ∧
  t.shadow = { s.shadow with holders := s.shadow.holders.map fun h => if h = some c then none else h } ∧
  t.inReset = s.inReset ∧ t.strap = s.strap ∧ t.loader = s.loader ∧ t.arbiter = s.arbiter ∧ t.pending = s.pending ∧
  (s.board.ready = true → t.board.ready = true) ∧ t.board.fault = s.board.fault ∧
  (∀ w, t.writer.write = some w → w.chan ≠ c) ∧ WriteAbandoned s t c ∧ ∀ d, d ≠ c → KeepsRecord (s.chan d) (t.chan d)

/-- The queue of port `p` is served as far as it goes without another event, from a state in which no request is in
service (R107, R142): one request at a time, each with the report block that waits ahead of it. -/
inductive Serves : State → State → Chan → Prop where
  /-- An empty queue in OPEN: nothing happens. -/
  | idle (s : State) (p : Chan) : s.seqState p = .opened → (s.chan p).port.queue = [] → Serves s s p
  /-- An empty queue ends a drain. -/
  | drained (s t : State) (p : Chan) : s.seqState p = .draining → (s.chan p).port.queue = [] → RetestBegun s t p →
    Serves s t p
  /-- A read, or a write with a block at memory, waits for another event. -/
  | waits (s t : State) (p : Chan) (r : Request) (rest : List Request) : (s.chan p).port.queue = r :: rest →
    r.isWrite = false ∨ requestOps (s.chan p) r ≠ [] → ServiceBegun s t p r → Serves s t p
  /-- A write with no block at memory leaves at once. -/
  | goesOn (s u v t : State) (p : Chan) (r : Request) (rest : List Request) : (s.chan p).port.queue = r :: rest →
    r.isWrite = true → requestOps (s.chan p) r = [] → ServiceBegun s u p r → ReportFirst (leaves u p) v p →
    Serves v t p → Serves s t p

/-- What the escape of a code and an operand, taken on port `p`, does to the part `s` in which its fifth write stands in the
queue (R107, R148, R152, R158): fault acknowledge; a retest of an OPEN channel, which drains, or begins its retest at once
when its queue is empty; a publish that an IDLE writer starts or a WRITING one notes; or nothing. -/
def EscapeEffect (s t : State) (p : Chan) (code operand : Nat) : Prop :=
  let drains (d : Chan) : State := s.updChan d fun ch =>
    { ch with seq := { ch.seq with state := .draining }, port := { ch.port with detector := .idle } }
  (code = 3 → t = { s with board := { s.board with fault := false } }) ∧
  (code = 2 → ∀ d : Chan, operand = d.val → s.seqState d = .opened →
    (d = p ∨ (s.chan d).port.headWaits → t = drains d) ∧
    (d ≠ p → (s.chan d).port.queue = [] → RetestBegun (drains d) t d)) ∧
  (code = 1 → strapPublish s.strap = true → s.writer.write = none → ∀ c, Placed s c → WriteStarted s t c) ∧
  (code = 1 → strapPublish s.strap = true → s.writer.write ≠ none →
    t = { s with writer := { s.writer with pendingPublish := true } }) ∧
  (code ∉ [1, 2, 3] ∨ code = 1 ∧ strapPublish s.strap = false ∨
      code = 2 ∧ (∀ d : Chan, operand = d.val → s.seqState d ≠ .opened) →
    t = s)

/-! ### The outbound layouts (R160, sections 11.3 and 11.5) -/

/-- The little-endian number in bytes `i` to `i + k - 1`. -/
def fieldAt (l : List Byte) (i k : Nat) : Nat := ((l.drop i).take k).foldr (fun b acc => b.toNat + 256 * acc) 0

/-- The header record of the report. -/
def HeaderLayout (s : State) (l : List Byte) : Prop :=
  l.length = 32 ∧ fieldAt l 0 1 = 1 ∧ fieldAt l 1 1 = 2 ∧ l[2]? = some s.strap ∧
  [LoaderState.idle, .loading, .valid, .truncated, .absent, .bad, .late][fieldAt l 3 1]? = some s.loader.state ∧
  fieldAt l 4 2 = s.loader.kept.revision.toNat ∧ fieldAt l 6 1 = 4 ∧ (∀ i, 7 ≤ i → i < 31 → l[i]? = some 0) ∧
  byteSum l % 256 = 0

/-- The repair list entry of record `r` at byte `i`. -/
def EntryLayout (l : List Byte) (i : Nat) (r : FailRecord) : Prop :=
  let flags := fieldAt l (i + 6) 1
  let lane := fieldAt l (i + 7) 1
  fieldAt l i 1 = r.bank % 256 ∧ fieldAt l (i + 1) 2 = r.row % 65536 ∧
  [RecStatus.repairedSpare, .repairedShadow, .marginal, .unrepairable, .column, .pending][fieldAt l (i + 3) 1]? =
    some r.status ∧
  fieldAt l (i + 4) 1 = r.target.getD 0 % 256 ∧ fieldAt l (i + 5) 1 = r.count % 256 ∧
  flags % 16 = r.firstElement % 16 ∧ flags.testBit 4 = r.retention ∧ flags.testBit 5 = r.many ∧ flags < 64 ∧
  (∀ L < 64, r.lanes.getLsbD L = true → (∀ j < L, r.lanes.getLsbD j = false) → lane % 64 = L) ∧
  lane.testBit 6 = false ∧ (lane.testBit 7 = true ↔ ∃ L < 64, ∀ j < 64, r.lanes.getLsbD j = decide (j = L))

/-- The record of channel `c`, with its repair list. -/
def ChannelLayout (s : State) (c : Chan) (l : List Byte) : Prop :=
  let ch := s.chan c
  let q := ch.seq
  let n := ch.log.records.length
  let counted (st : RecStatus) : Nat := (ch.log.records.filter fun r => r.status = st).length % 256
  let ends := fieldAt l 5 1
  let flags := fieldAt l 7 1
  l.length = 32 + 8 * n ∧ fieldAt l 0 1 = 2 + 16 * c.val ∧ fieldAt l 1 2 = (32 + 8 * n) % 65536 ∧
  fieldAt l 3 2 = (if c.val = 3 then 0 else (32 + 8 * n) % 65536) ∧
  [SeqState.powering, .identifying, .selecting, .queued, .testing, .analysing, .done, .opened, .draining, .closing,
    .failed, .absent][ends % 16]? = some q.state ∧
  [EndResult.unset, .clean, .repaired, .partly, .untested, .degraded, .failed][ends / 16]? = some q.result ∧
  [Reason.unset, .repair, .supplyLost, .noResponse, .identityUnstable, .width, .geometry, .notReady][fieldAt l 6 1]? =
    some q.reason ∧
  flags.testBit 0 = q.aliasUsed ∧ [none, some Width.full, some .half][flags / 2 % 4]? = some q.width ∧
  flags.testBit 3 = q.supplyUnconfirmed ∧ flags.testBit 4 = q.causes.unrepairable ∧ flags.testBit 5 = q.causes.column ∧
  flags.testBit 6 = q.causes.overflow ∧ flags < 128 ∧
  fieldAt l 8 2 = (q.identityRead.getD 0).toNat ∧ fieldAt l 10 2 = (q.effective.getD 0).toNat ∧
  (q.profile = none → fieldAt l 12 1 = 255) ∧ (∀ k p, q.profile = some (k, p) → fieldAt l 12 1 = k % 256) ∧
  fieldAt l 13 1 = n % 256 ∧ fieldAt l 14 4 = ch.visibleBlocks % 2 ^ 32 ∧
  (∀ b < 16, (fieldAt l 18 2).testBit b = decide (b ∈ q.entered) ∧
    (fieldAt l 20 2).testBit b = decide (b ∈ q.fullySwept) ∧
    (fieldAt l 22 2).testBit b = decide (∃ r ∈ ch.log.records, r.bank = b ∧ r.status = .column)) ∧
  fieldAt l 24 1 = counted .repairedSpare ∧ fieldAt l 25 1 = counted .repairedShadow ∧
  fieldAt l 26 1 = counted .marginal ∧ fieldAt l 27 1 = counted .unrepairable ∧
  fieldAt l 28 1 = (s.shadow.holders.toList.filter fun h => h = some c).length ∧
  fieldAt l 29 2 = ch.port.rejectedCount % 65536 ∧ byteSum l % 256 = 0 ∧
  ∀ (i : Nat) (r : FailRecord), ch.log.records[i]? = some r → EntryLayout l (32 + 8 * i) r

/-- A message to the controller. A GRANT's count byte holds n modulo 256 (log entry 23). -/
def MessageLayout : Message → List Byte → Prop
  | .grant n, l => l.length = 2 ∧ fieldAt l 0 1 = 1 ∧ fieldAt l 1 1 = n % 256
  | .restore n, l => l.length = 2 ∧ fieldAt l 0 1 = 2 ∧ fieldAt l 1 1 = n % 256
  | .response tag lenCode st data, l =>
    let head := fieldAt l 1 1
    let status := fieldAt l 2 1
    l.length = 3 + 64 * data.length ∧ fieldAt l 0 1 = 3 ∧
    head % 32 = tag % 32 ∧ head / 32 = lenCode % 4 ∧
    status % 4 = st.phase % 4 ∧ status.testBit 2 = st.rejected ∧ status.testBit 3 = st.range ∧
    status.testBit 4 = st.remapped ∧ status.testBit 5 = st.shadow ∧ status.testBit 6 = st.error ∧ status < 128 ∧
    ∀ (i : Nat) (b : Block), data[i]? = some b → ∀ j < 64, l[3 + 64 * i + j]? = some (b.extractLsb' (8 * j) 8)

/-! ### The descriptor's records (R126 to R130) -/

/-- Records at the positions `ps`, each sound and each beginning where the one before ends, from byte `a` to byte `e`. -/
def Chained (size : Nat → Nat) (sound : Nat → Prop) (a : Nat) (ps : List Nat) (e : Nat) : Prop :=
  match ps with
  | [] => e = a
  | p :: rest => p = a ∧ sound p ∧ Chained size sound (p + size p) rest e

/-- The record case of R126. -/
def extensionSound (image : List Byte) (p : Nat) : Prop :=
  p + 2 ≤ image.length ∧ 4 ≤ u16 image p ∧ p + u16 image p ≤ image.length

/-- The sound case of R129. -/
def profileSound (image : List Byte) (p : Nat) : Prop :=
  p + 9 ≤ image.length ∧ 9 ≤ u16 image p ∧ p + u16 image p ≤ image.length ∧
  (1 ≤ u8 image (p + 8) → u8 image (p + 8) ≤ 12 → 9 + 4 * u8 image (p + 8) ≤ u16 image p)

/-- A sound profile that R130 does not drop: 1 to 12 elements, each with 1 to 4 operations and direction code 0 or 1. -/
abbrev profileTaken (image : List Byte) (p : Nat) : Prop :=
  1 ≤ u8 image (p + 8) ∧ u8 image (p + 8) ≤ 12 ∧
  ∀ i < u8 image (p + 8), 1 ≤ u8 image (p + 9 + 4 * i + 1) % 8 ∧ u8 image (p + 9 + 4 * i + 1) % 8 ≤ 4 ∧
    u8 image (p + 9 + 4 * i + 1) / 8 % 4 ≤ 1

/-- What R130 keeps of the profile at byte `p`. -/
def profileKept (image : List Byte) (p : Nat) : Profile :=
  { identity := BitVec.ofNat 16 (u16 image (p + 2)), minLevel := u8 image (p + 4), tCode := u8 image (p + 5),
    cCode := u8 image (p + 6), repairMarginal := decide (u8 image (p + 7) % 2 = 1),
    elements := (List.range (u8 image (p + 8))).map fun i => decodeElement image (p + 9 + 4 * i) }

/-- What R128 keeps of the override at byte `p`, if it keeps it. -/
def overrideKept (image : List Byte) (p : Nat) : Option Override :=
  if h : u8 image (p + 1) < 4 then
    if u8 image p = 1 then some (.aliasId ⟨_, h⟩ (BitVec.ofNat 16 (u16 image (p + 2))))
    else if u8 image p = 2 then some (.skipTest ⟨_, h⟩)
    else none
  else none

/-! ### Laws of the device -/

/-- While reset is asserted every block holds its reset state (R109). -/
def HeldLaw (s : State) : Prop :=
  s.inReset = true →
    (∀ c, s.chan c = Channel.reset (s.chan c).supplyGood) ∧ s.arbiter.holders = [] ∧ s.arbiter.waitQueue = [] ∧
    s.shadow = Shadow.reset ∧ s.loader = Loader.reset ∧ s.writer = { write := none, pendingPublish := false } ∧
    s.board = { ready := false, readyRaised := false, fault := false }

/-- The work of a channel's blocks belongs to its sequencer's state: a sweep to TESTING, an analysis to ANALYSING, an
identity read or width check to IDENTIFYING, a place in the wait queue to QUEUED, a slot to TESTING (R88, R97, R110). -/
def SequencerLaw (s : State) : Prop :=
  HeldLaw s ∧
  (∀ c, (s.chan c).march.isSome = true → s.seqState c = .testing) ∧
  (∀ c, (s.chan c).analyser.isSome = true → s.seqState c = .analysing) ∧
  (∀ c, (s.chan c).seq.ident ≠ .idle → s.seqState c = .identifying) ∧
  (∀ c, (s.chan c).seq.supplyWait = true → s.seqState c = .powering) ∧
  (∀ c, c ∈ s.arbiter.waitQueue ↔ s.seqState c = .queued) ∧
  (∀ c, c ∈ s.arbiter.holders ↔ s.seqState c = .testing) ∧
  s.arbiter.waitQueue.Nodup ∧ s.arbiter.holders.Nodup

/-- R110: never more than S holders. A channel waits only while every slot is held (R113). -/
def ArbiterLaw (s : State) : Prop :=
  s.arbiter.holders.length ≤ s.arbiter.slots ∧
  (s.arbiter.waitQueue ≠ [] → s.arbiter.holders.length = s.arbiter.slots)

/-- R37 and R38: at most 128 records, no two with one (bank, row); every fail count 1 to 255; every column list 1 to 4
distinct columns. -/
def LogLaw (s : State) : Prop :=
  ∀ c, (s.chan c).log.records.length ≤ 128 ∧
    ((s.chan c).log.records.map fun r => (r.bank, r.row)).Nodup ∧
    (s.chan c).log.failedSpares.Nodup ∧
    ∀ r ∈ (s.chan c).log.records,
      1 ≤ r.count ∧ r.count ≤ 255 ∧ 1 ≤ r.columns.length ∧ r.columns.length ≤ 4 ∧ r.columns.Nodup

/-- How many entries of a Remap Table name shadow entry `e`. -/
def namesOf (t : List RemapEntry) (e : Nat) : Nat := (t.filter fun x => x.target = .shadow e).length

/-- R77: place `e` records channel c exactly when c's Remap Table holds a SHADOW entry naming `e`, and then just one
(R73); no table names an entry of 32 or above. -/
def ShadowLaw (s : State) : Prop :=
  ∀ c e, namesOf (s.chan c).remap e = if s.shadow.holders.toList[e]? = some (some c) then 1 else 0

/-- R137 and R141: in OPEN the credit count and the queue number 16; the queue is empty in every state but OPEN, DRAINING
and CLOSING; a request in service stands in the queue. -/
def CreditLaw (s : State) : Prop :=
  ∀ c, (s.seqState c = .opened → (s.chan c).port.credit + (s.chan c).port.queue.length = 16) ∧
    (s.seqState c = .draining → (s.chan c).port.credit + (s.chan c).port.queue.length ≤ 16) ∧
    (s.seqState c ≠ .opened → s.seqState c ≠ .draining → s.seqState c ≠ .closing → (s.chan c).port.queue = []) ∧
    ((s.chan c).port.service.isSome = true → (s.chan c).port.queue ≠ [])

/-- R147: an escape detector is out of IDLE only in OPEN with strap bit 7 at 1. -/
def DetectorLaw (s : State) : Prop :=
  ∀ c, (s.chan c).port.detector ≠ .idle → s.seqState c = .opened ∧ strapEscapes s.strap = true

/-- A pause is running (R26). -/
def Channel.pausing (ch : Channel) : Bool := (ch.march.map fun m => m.pause.isSome).getD false

/-- R26: refresh is withheld exactly while a pause runs, and then no sweep operation is outstanding. -/
def RefreshLaw (s : State) : Prop :=
  ∀ c, (s.chan c).ds.refreshWithheld = (s.chan c).pausing ∧
    ((s.chan c).pausing = true → (s.chan c).ds.ops.any DsOp.isLiveSweep = false)

/-- R157: READY follows its note, and is active once every channel is OPEN, FAILED or ABSENT. -/
def ReadyLaw (s : State) : Prop :=
  s.board.ready = s.board.readyRaised ∧ (s.allSettled = true → s.board.ready = true)

/-- R156: while a report write runs, its placed channel is DONE, OPEN or DRAINING, and strap bit 5 is 1 (R152). -/
def WriterLaw (s : State) : Prop :=
  ∀ w, s.writer.write = some w → (s.seqState w.chan).carriesReport = true ∧ strapPublish s.strap = true

/-- R152: under strap bit 5 an IDLE writer has no publish pending, and no channel waits DONE unless one is testing. -/
def StartLaw (s : State) : Prop :=
  strapPublish s.strap = true → s.writer.write = none →
    s.writer.pendingPublish = false ∧
    ((∃ c, s.seqState c = .done) → ∃ c, s.seqState c ∈ testingStates)

/-- R77 and R78: no channel names more shadow entries than its cap, which does not change once an analysis can begin. -/
def CapLaw (s : State) : Prop :=
  (∀ c, heldEntries (s.chan c).remap ≤ s.shadow.cap) ∧
  (∀ c a, (s.chan c).analyser = some a →
    a.cap = s.shadow.cap ∧ (a.phase = .claiming → heldEntries (s.chan c).remap < a.cap)) ∧
  (s.loader.state = .loading → ∀ c, (s.chan c).remap = [] ∧ s.seqState c ≠ .queued ∧ s.seqState c ≠ .testing ∧
    s.seqState c ≠ .analysing)

/-- The remap entry a repaired record stands for (R72). -/
def FailRecord.entry (r : FailRecord) : Option RemapEntry :=
  match r.status, r.target with
  | .repairedSpare, some k => some { bank := r.bank, row := r.row, target := .spare k }
  | .repairedShadow, some e => some { bank := r.bank, row := r.row, target := .shadow e }
  | _, _ => none

/-- R72: the Remap Table holds exactly one entry for each REPAIRED record, and no other. A candidate that waits for a
claim is PENDING. -/
def RepairLaw (s : State) : Prop :=
  ∀ c, ((s.chan c).remap).Perm ((s.chan c).log.records.filterMap FailRecord.entry) ∧
    ∀ a, (s.chan c).analyser = some a → a.phase = .claiming →
      a.candidates.Nodup ∧ ∀ row ∈ a.candidates, ∃ r ∈ (s.chan c).log.records,
        r.bank = a.bank ∧ r.row = row ∧ r.status = .pending

/-- The (bank, index) of each bank spare a table names. -/
def sparesOf (t : List RemapEntry) : List (Nat × Nat) :=
  t.filterMap fun e => match e.target with
                       | .spare k => some (e.bank, k)
                       | .shadow _ => none

/-- R73: no two entries of a table name one bank spare of one bank, and no named spare is in its bank's failed-spare set.
The other clauses say where testing stands: banks are swept in ascending order, and spares are given out only by the
analysis of their own bank. -/
def SpareLaw (s : State) : Prop :=
  ∀ c, (sparesOf (s.chan c).remap).Nodup ∧
    (∀ x ∈ sparesOf (s.chan c).remap, x ∉ (s.chan c).log.failedSpares) ∧
    (s.seqState c = .queued ∨ s.seqState c = .testing → ∀ e ∈ (s.chan c).remap, e.bank < (s.chan c).seq.nextBank) ∧
    (∀ m, (s.chan c).march = some m → m.bank = (s.chan c).seq.nextBank) ∧
    (∀ a, (s.chan c).analyser = some a → a.bank = (s.chan c).seq.nextBank ∧
      (∀ e ∈ (s.chan c).remap, e.bank ≤ a.bank) ∧
      ∀ x ∈ sparesOf (s.chan c).remap, x.1 = a.bank → x.2 ∈ a.given) ∧
    (s.seqState c = .powering ∨ s.seqState c = .identifying ∨ s.seqState c = .selecting → (s.chan c).remap = [])

/-- R37: no record stands for a hidden spare row. Before a geometry is taken the log is empty. -/
def VisibleLaw (s : State) : Prop :=
  ∀ c, (∀ r ∈ (s.chan c).log.records, ∃ g, (s.chan c).geometry = some g ∧ r.row < g.visibleRows) ∧
    (s.seqState c = .powering ∨ s.seqState c = .identifying ∨ s.seqState c = .selecting → (s.chan c).log.records = [])

end Sys2Proof.Machine
end

