-- ==== Sys2Proof/Certificates/Slice0/Obligations.lean ====
section
/-! DEFINITION. The statements for the provers. A channel other than those a statement names, and a shared block, is
covered by its frame clauses (OnlyChannel, Around, KeepsShared and so on, in Sys2Proof/Safety.lean). -/

open Sys2Proof Sys2Proof.Machine

/-! ### The step -/

/-- A step runs the command at the front of the queue on the state with the queue's rest; on an empty queue it idles (the
queue and the idling are the model's choice, log entry 1). -/
def Obligations.StepRunsFrontCommand : Prop :=
  ∀ (s : State) (i : Instr) (q : List Instr),
    step { s with pending := i :: q } = exec i { s with pending := q } ∧
    step { s with pending := [] } = .next { s with pending := [] }

/-- Every command completes in every state, whatever its operands, and leaves the queue of commands as it is (log entries
1 and 9). -/
def Obligations.EveryCommandCompletes : Prop :=
  ∀ (s : State) (i : Instr), ∃ t, exec i s = .next t ∧ t.pending = s.pending

/-! ### Reset and supply -/

/-- Reset assertion gives every block the reset state the spec states, in any state (R32, R37, R52, R69, R71, R77, R78,
R88, R109, R110, R116, R121, R150, R152, R157, R158). That the supply-good inputs stand, as the board drives them, and that
the part is then held in reset, are the model's form (log entries 12 and 19), as is the strap word that stands (log entry
11). -/
def Obligations.ResetAssertionResets : Prop :=
  ∀ s : State, ∃ t, exec .resetAssertion s = .next t ∧
    t.inReset = true ∧ t.strap = s.strap ∧ t.pending = s.pending ∧
    (∀ c, (t.chan c).supplyGood = (s.chan c).supplyGood ∧
      (t.chan c).seq.state = .powering ∧ (t.chan c).seq.result = .unset ∧ (t.chan c).seq.reason = .unset ∧
      (t.chan c).seq.identityRead = none ∧ (t.chan c).seq.effective = none ∧ (t.chan c).seq.aliasUsed = false ∧
      (t.chan c).seq.width = none ∧ (t.chan c).seq.profile = none ∧ (t.chan c).seq.nextBank = 0 ∧
      (t.chan c).seq.entered = [] ∧ (t.chan c).seq.fullySwept = [] ∧
      (t.chan c).seq.causes = { unrepairable := false, column := false, overflow := false } ∧
      (t.chan c).seq.budgetExpired = false ∧ (t.chan c).seq.supplyUnconfirmed = false ∧
      (t.chan c).seq.timer = .stopped ∧ (t.chan c).seq.supplyWait = false ∧ (t.chan c).seq.ident = .idle ∧
      (t.chan c).geometry = none ∧ (t.chan c).remap = [] ∧ (t.chan c).log.records = [] ∧
      (t.chan c).log.failedSpares = [] ∧ (t.chan c).march = none ∧ (t.chan c).analyser = none ∧
      (t.chan c).ds.ops = [] ∧ (t.chan c).ds.refreshWithheld = false ∧
      (t.chan c).port.credit = 0 ∧ (t.chan c).port.queue = [] ∧ (t.chan c).port.service = none ∧
      (t.chan c).port.outbound = [] ∧ (t.chan c).port.rejected = false ∧ (t.chan c).port.range = false ∧
      (t.chan c).port.rejectedCount = 0 ∧ (t.chan c).port.detector = .idle) ∧
    t.arbiter.holders = [] ∧ t.arbiter.waitQueue = [] ∧ (∀ e : Fin 32, t.shadow.holders[e] = none) ∧ t.shadow.cap = 32 ∧
    t.loader.state = .idle ∧ t.loader.stage = none ∧ t.loader.limitTimer = false ∧ t.loader.selected = false ∧
    t.loader.buffer = [] ∧ t.loader.kept.profiles = [] ∧ t.loader.kept.overrides = [] ∧ t.loader.kept.budgetExt = none ∧
    t.loader.kept.capExt = none ∧ t.loader.kept.openFailed = false ∧ t.loader.kept.revision = 0 ∧
    t.loader.kept.reportChannel = 0 ∧ t.loader.kept.reportOffset = 0 ∧
    t.writer.write = none ∧ t.writer.pendingPublish = false ∧
    t.board.ready = false ∧ t.board.readyRaised = false ∧ t.board.fault = false

/-- The fields of the strap word: slot code in bits 1 and 0, publish report, honour pauses and escape detection in bits 5, 6
and 7 (R87). And reset release latches the strap word, takes S, starts the budget timers and the loader, and begins each
supply wait (R87, R89, R109, R110, R116, R122). -/
def Obligations.ResetReleaseStarts : Prop :=
  (∀ w : BitVec 8, strapSlotCode w = w.toNat % 4 ∧ strapPublish w = w.toNat.testBit 5 ∧
    strapPauses w = w.toNat.testBit 6 ∧ strapEscapes w = w.toNat.testBit 7) ∧
  ∀ (s : State) (lanes : BitVec 8), HeldLaw s → s.inReset = true →
    ∃ t, exec (.resetRelease lanes) s = .next t ∧
      t.inReset = false ∧ t.strap = lanes ∧ t.shadow = s.shadow ∧ t.writer = s.writer ∧ t.board = s.board ∧
      t.pending = s.pending ∧ t.arbiter.holders = [] ∧ t.arbiter.waitQueue = [] ∧
      (lanes.extractLsb' 0 2 = 3#2 → t.arbiter.slots = 2) ∧ (lanes.extractLsb' 0 2 = 2#2 → t.arbiter.slots = 4) ∧
      (lanes.extractLsb' 0 2 = 1#2 → t.arbiter.slots = 1) ∧ (lanes.extractLsb' 0 2 = 0#2 → t.arbiter.slots = 0) ∧
      (lanes.getLsbD 2 = false → t.loader = { s.loader with state := .absent }) ∧
      (lanes.getLsbD 2 = true →
        t.loader = { s.loader with state := .loading, stage := some .statusRead, limitTimer := true, selected := true,
                                   sent := [0x05#8] }) ∧
      ∀ c, let timer := timerSettled (budgetDuration lanes .absent Kept.nothing) .unlimited
        ((s.chan c).supplyGood = true →
          t.chan c = { s.chan c with
            seq := { (s.chan c).seq with state := .identifying, ident := .reading 0 1 none [], timer := timer },
            ds := { (s.chan c).ds with select := 0 } }) ∧
        ((s.chan c).supplyGood = false →
          t.chan c = { s.chan c with seq := { (s.chan c).seq with supplyWait := true, timer := timer } })

/-- The supply wait ends by a rise with the note clear, or by its expiry with the note set; either way the channel enters
IDENTIFYING and drives select value 0 (R89, R90). A rise elsewhere, and a fall in POWERING, CLOSING, FAILED or ABSENT, is
noted by the input alone (R89, R102). -/
def Obligations.SupplyWaitEnds : Prop :=
  ∀ (s : State) (c : Chan),
    (s.seqState c = .powering → (s.chan c).seq.supplyWait = true →
      (∃ t, exec (.supplyGoodRise c) s = .next t ∧ OnlyChannel c s t ∧
        t.chan c = { s.chan c with
          supplyGood := true,
          seq := { (s.chan c).seq with state := .identifying, supplyWait := false, ident := .reading 0 1 none [] },
          ds := { (s.chan c).ds with select := 0 } }) ∧
      ∃ t, exec (.supplyWaitExpiry c) s = .next t ∧ OnlyChannel c s t ∧
        t.chan c = { s.chan c with
          seq := { (s.chan c).seq with state := .identifying, supplyWait := false, ident := .reading 0 1 none [],
                                       supplyUnconfirmed := true },
          ds := { (s.chan c).ds with select := 0 } }) ∧
    (¬(s.seqState c = .powering ∧ (s.chan c).seq.supplyWait = true) →
      ∃ t, exec (.supplyGoodRise c) s = .next t ∧ OnlyChannel c s t ∧
        t.chan c = { s.chan c with supplyGood := true }) ∧
    (s.seqState c ∈ [SeqState.powering, .closing, .failed, .absent] →
      ∃ t, exec (.supplyGoodFall c) s = .next t ∧ OnlyChannel c s t ∧
        t.chan c = { s.chan c with supplyGood := false })

/-- A loss from IDENTIFYING to DONE takes the channel to FAILED with the loss's reason, abandons its work, and keeps its
geometry, Remap Table, Fail Log and shadow entries (R31, R50, R66, R75, R102, R103, R112, R113). What the Downstream
Sequencer holds completes with its results discarded, but in DONE and after a no-response, where it is abandoned; a report
write on the channel is abandoned, and its start set opens (R31, R92, R101, R155, R156). That the identity select lines keep
the value last driven when a loss stops an identity read (log entry 22), and that a report operation which a retest left
stands in IDENTIFYING, to complete (log entry 26), are the model's choices; the bytes in doubt leave the model's record of DRAM
writes (log entry 3). A slot freed by a loss in TESTING goes to the head of the wait queue, whose sweep of its next bank
begins (R111, R112). -/
def Obligations.LossBeforeOpening : Prop :=
  ∀ (s : State) (c : Chan), SequencerLaw s →
    s.seqState c ∈ [SeqState.identifying, .selecting, .queued, .testing, .analysing, .done] →
    ((s.chan c).supplyGood = true →
      ∃ t, exec (.supplyGoodFall c) s = .next t ∧ LostBeforeOpening s t c .supplyLost ∧
        (t.chan c).supplyGood = false ∧
        (WriterLaw s → (t.chan c).ds = (s.chan c).ds.afterLoss (s.seqState c) ∧
          (s.seqState c = .testing → HeadGranted s t))) ∧
    ((∃ op ∈ (s.chan c).ds.ops, op.write = none) →
      ∃ t, exec (.noResponse c) s = .next t ∧ LostBeforeOpening s t c .noResponse ∧
        (t.chan c).ds = { (s.chan c).ds with
          ops := [], written := (s.chan c).ds.ops.foldl (fun m op => dramDoubt op m) (s.chan c).ds.written,
          refreshWithheld := if s.seqState c = .testing then false else (s.chan c).ds.refreshWithheld } ∧
        (WriterLaw s → s.seqState c = .testing → HeadGranted s t) ∧
        (t.chan c).supplyGood = (s.chan c).supplyGood)

/-- A loss in OPEN or DRAINING takes the channel through CLOSING: writes are dropped, the first read is answered in error
unless its response was already formed, no credit returns, and with the queue empty the channel is FAILED; a report write
on the channel is abandoned, and its start set opens (R101, R104, R146, R155, R156). That a read leaves only when its
response has been sent, and the next is answered then, is the model's reading (log entry 8); the bytes in doubt leave the
model's record of DRAM writes (log entry 3). -/
def Obligations.LossWhileOpen : Prop :=
  ∀ (s : State) (c : Chan),
    s.seqState c = .opened ∨ s.seqState c = .draining →
    ((s.chan c).port.responseFormed = true → ∃ r rest, (s.chan c).port.queue = r :: rest ∧ r.isWrite = false) →
    ((s.chan c).supplyGood = true →
      ∃ t, exec (.supplyGoodFall c) s = .next t ∧ LostWhileOpen s t c .supplyLost ∧ (t.chan c).supplyGood = false) ∧
    ((∃ op ∈ (s.chan c).ds.ops, op.write = none) →
      ∃ t, exec (.noResponse c) s = .next t ∧ LostWhileOpen s t c .noResponse ∧
        (t.chan c).supplyGood = (s.chan c).supplyGood)

/-- A no-response event in CLOSING, FAILED or ABSENT touches the Downstream Sequencer alone: its operations are abandoned,
and what an abandoned write names is no longer known (R92, R101, R102). -/
def Obligations.NoResponseAfterLoss : Prop :=
  ∀ (s : State) (c : Chan), s.seqState c ∈ [SeqState.closing, .failed, .absent] →
    (∃ op ∈ (s.chan c).ds.ops, op.write = none) →
    ∃ t, exec (.noResponse c) s = .next t ∧ OnlyChannel c s t ∧
      t.chan c = { s.chan c with
        ds := { (s.chan c).ds with
          ops := [], written := (s.chan c).ds.ops.foldl (fun m op => dramDoubt op m) (s.chan c).ds.written } }

/-! ### Identification -/

/-- The identity read (R1, R90, R91, R92): two samples an attempt, three attempts a nibble, select values in order; a third
attempt that differs fails the channel; the fourth nibble completes the identity, 0xFFFF making the channel ABSENT and any
other value starting the width check. That the select lines then keep the value last driven (log entry 22), and that a report
operation which a retest left stands where the read ends in ABSENT or FAILED (log entry 27), are the model's choices. -/
def Obligations.IdentityRead : Prop :=
  ∀ (s : State) (c : Chan) (nibble : BitVec 4) (select attempt : Nat) (ns : List (BitVec 4)),
    ((s.chan c).seq.ident = .reading select attempt none ns →
      ∃ t, exec (.identitySample c nibble) s = .next t ∧ OnlyChannel c s t ∧
        t.chan c = { s.chan c with seq := { (s.chan c).seq with ident := .reading select attempt (some nibble) ns } }) ∧
    ∀ first, (s.chan c).seq.ident = .reading select attempt (some first) ns →
      (first ≠ nibble → attempt < 3 →
        ∃ t, exec (.identitySample c nibble) s = .next t ∧ OnlyChannel c s t ∧
          t.chan c = { s.chan c with seq := { (s.chan c).seq with ident := .reading select (attempt + 1) none ns } }) ∧
      (first ≠ nibble → attempt = 3 →
        ∃ t, exec (.identitySample c nibble) s = .next t ∧ FailedWith t c .identityUnstable ∧ Around c s t ∧
          (t.chan c).seq = { (s.chan c).seq with
            state := .failed, result := .failed, reason := .identityUnstable, ident := .idle } ∧
          KeepsRepairs (s.chan c) (t.chan c) ∧ (t.chan c).port = (s.chan c).port ∧
          (SequencerLaw s → WriterLaw s → (t.chan c).ds = (s.chan c).ds)) ∧
      (first = nibble → ns.length < 3 →
        ∃ t, exec (.identitySample c nibble) s = .next t ∧ OnlyChannel c s t ∧
          t.chan c = { s.chan c with
            seq := { (s.chan c).seq with ident := .reading (select + 1) 1 none (ns ++ [nibble]) },
            ds := { (s.chan c).ds with select := select + 1 } }) ∧
      ∀ n0 n1 n2, first = nibble → ns = [n0, n1, n2] →
        let v : BitVec 16 := n0 ++ n1 ++ n2 ++ nibble
        (v = 0xFFFF#16 →
          ∃ t, exec (.identitySample c nibble) s = .next t ∧ Around c s t ∧ t.board.fault = s.board.fault ∧
            (t.chan c).seq = { (s.chan c).seq with state := .absent, identityRead := some v, ident := .idle } ∧
            KeepsRepairs (s.chan c) (t.chan c) ∧ (t.chan c).port = (s.chan c).port ∧
            (SequencerLaw s → WriterLaw s → (t.chan c).ds = (s.chan c).ds)) ∧
        (v ≠ 0xFFFF#16 →
          ∃ t op, exec (.identitySample c nibble) s = .next t ∧ OnlyChannel c s t ∧
            t.chan c = { s.chan c with
              seq := { (s.chan c).seq with identityRead := some v, ident := .widthCheck 1 0 },
              ds := { (s.chan c).ds with ops := (s.chan c).ds.ops ++ [op] } } ∧
            op.bank = 0 ∧ op.row = 0 ∧ op.col = 0 ∧ op.owner = .widthCheck true ∧ op.layout = .full ∧
            ∃ data, op.write = some data ∧ ∀ j < 8, data.extractLsb' (64 * j) 64 = 0x55555555AAAAAAAA#64)

/-- The four operations of the width check, one at a time (R92): after each of the first three the next is handed over, on
bank 0, row 0, block column 0; the second and the fourth are reads, the third writes the complement. A stopped check's
operation completes with its data discarded. -/
def Obligations.WidthCheckOperations : Prop :=
  ∀ (s : State) (c : Chan) (data : Block) (op : DsOp) (rest : List DsOp), (s.chan c).ds.ops = op :: rest →
    (∀ n r, op.owner = .widthCheck true → (s.chan c).seq.ident = .widthCheck n r → n ∈ [1, 2, 3] →
      ∃ t op', exec (.widthCheckOpComplete c data) s = .next t ∧ OnlyChannel c s t ∧
        t.chan c = { s.chan c with
          seq := { (s.chan c).seq with ident := .widthCheck (n + 1) (if n = 2 then data else r) },
          ds := { (s.chan c).ds with ops := rest ++ [op'], written := landAll [op] (s.chan c).ds.written } } ∧
        op'.bank = 0 ∧ op'.row = 0 ∧ op'.col = 0 ∧ op'.owner = .widthCheck true ∧ op'.layout = .full ∧
        (n ≠ 2 → op'.write = none) ∧
        (n = 2 → ∃ w, op'.write = some w ∧ ∀ j < 8, w.extractLsb' (64 * j) 64 = 0xAAAAAAAA55555555#64)) ∧
    (op.owner = .widthCheck false →
      ∃ t, exec (.widthCheckOpComplete c data) s = .next t ∧ OnlyChannel c s t ∧
        t.chan c = { s.chan c with
          ds := { (s.chan c).ds with ops := rest, written := landAll [op] (s.chan c).ds.written } })

/-- The width judgement, lane by lane over the eight column words of both reads (R93): word j's lane L is bit 64 j + L. -/
def Obligations.WidthJudgement : Prop :=
  ∀ (r1 r2 : Block),
    let fits (j L : Nat) : Prop :=
      r1.getLsbD (64 * j + L) = (0x55555555AAAAAAAA#64).getLsbD L ∧
      r2.getLsbD (64 * j + L) = (0xAAAAAAAA55555555#64).getLsbD L
    let full : Prop := ∀ j < 8, ∀ L < 64, fits j L
    let half : Prop :=
      (∀ j < 8, ∀ L < 32, fits j L) ∧
      ∀ j < 8, ∀ L, 32 ≤ L → L < 64 → r1.getLsbD (64 * j + L) = true ∧ r2.getLsbD (64 * j + L) = true
    (full → judgeWidth r1 r2 = some .full) ∧ (half → judgeWidth r1 r2 = some .half) ∧
    (¬full → ¬half → judgeWidth r1 r2 = none)

/-- The last operation of the width check ends IDENTIFYING (R93, R94): FAILED WIDTH, or SELECTING, where the channel waits
while the loader is LOADING. -/
def Obligations.WidthCheckEnds : Prop :=
  ∀ (s : State) (c : Chan) (data r1 : Block) (op : DsOp) (rest : List DsOp),
    (s.chan c).ds.ops = op :: rest → op.owner = .widthCheck true → op.write = none →
    (s.chan c).seq.ident = .widthCheck 4 r1 →
    (judgeWidth r1 data = none →
      ∃ t, exec (.widthCheckOpComplete c data) s = .next t ∧ FailedWith t c .width ∧ Around c s t ∧
        (t.chan c).seq = { (s.chan c).seq with
          state := .failed, result := .failed, reason := .width, ident := .idle } ∧
        KeepsRepairs (s.chan c) (t.chan c) ∧ (t.chan c).port = (s.chan c).port ∧
        (SequencerLaw s → WriterLaw s → (t.chan c).ds = { (s.chan c).ds with ops := rest })) ∧
    ∀ w, judgeWidth r1 data = some w → s.loader.state = .loading →
      ∃ t, exec (.widthCheckOpComplete c data) s = .next t ∧ OnlyChannel c s t ∧
        t.chan c = { s.chan c with
          seq := { (s.chan c).seq with state := .selecting, width := some w, ident := .idle },
          ds := { (s.chan c).ds with
            ops := rest,
            written := if w = .half then dropUpperLanes (s.chan c).ds.written else (s.chan c).ds.written } }

/-- With the loader not LOADING, the channel selects at once (R2, R4, R94, R95, R96, R97, R99, R111): effective identity
and alias flag, then FAILED GEOMETRY, or the geometry and UNTESTED in DONE or OPEN, or a slot request for bank 0. With a slot
free its sweep starts, and the operations of the first block are handed over (R27); with strap bit 5 at 0 an UNTESTED channel
opens at once with credit count 16 and RESTORE 16 (R137). -/
def Obligations.SelectionAfterWidthCheck : Prop :=
  ∀ (s : State) (c : Chan) (data r1 : Block) (op : DsOp) (rest : List DsOp) (w : Width) (v : BitVec 16),
    SequencerLaw s → WriterLaw s →
    (s.chan c).ds.ops = op :: rest → op.owner = .widthCheck true →
    (s.chan c).seq.ident = .widthCheck 4 r1 → judgeWidth r1 data = some w → s.loader.state ≠ .loading →
    (s.chan c).seq.identityRead = some v →
    ∃ t, exec (.widthCheckOpComplete c data) s = .next t ∧
      let eff := (s.loader.aliasFor c).getD v
      let written := landAll [op] (s.chan c).ds.written
      let judged : Downstream :=
        { (s.chan c).ds with ops := rest, written := if w = .half then dropUpperLanes written else written }
      let chosen : Sequencer :=
        { (s.chan c).seq with
          ident := .idle, width := some w, effective := some eff, aliasUsed := (s.loader.aliasFor c).isSome }
      KeepsShared s t ∧ (t.chan c).log = (s.chan c).log ∧
      (t.chan c).remap = (s.chan c).remap ∧ (∀ d, d ≠ c → KeepsRecord (s.chan d) (t.chan d)) ∧
      (decodeIdentity eff w = none →
        FailedWith t c .geometry ∧ (t.chan c).geometry = (s.chan c).geometry ∧ t.arbiter = s.arbiter ∧
        (t.chan c).seq = { chosen with state := .failed, result := .failed, reason := .geometry } ∧
        (t.chan c).port = (s.chan c).port ∧ (t.chan c).ds = judged) ∧
      ∀ g, decodeIdentity eff w = some g →
        (t.chan c).geometry = some g ∧
        (strapSlotCode s.strap = 0 ∨ s.loader.skips c = true →
          (t.chan c).seq = { chosen with
            profile := s.loader.profileFor eff, result := .untested, reason := .unset,
            state := if strapPublish s.strap then .done else .opened } ∧
          (t.chan c).port = portWhenDone s.strap (s.chan c).port ∧ KeepsStream judged (t.chan c).ds ∧
          t.board.fault = true ∧ t.arbiter = s.arbiter) ∧
        (strapSlotCode s.strap ≠ 0 → s.loader.skips c = false →
          t.board.fault = s.board.fault ∧ (t.chan c).port = (s.chan c).port ∧
          (s.arbiter.holders.length < s.arbiter.slots →
            (t.chan c).seq = { chosen with
              profile := s.loader.profileFor eff, nextBank := 0, state := .testing,
              entered := (s.chan c).seq.entered ++ [0] } ∧
            t.arbiter = { s.arbiter with holders := s.arbiter.holders ++ [c] } ∧
            (let m := Sweep.start (t.chan c).seq.march 0 g
             (t.chan c).march = some m ∧ (t.chan c).ds = { judged with ops := rest ++ m.blockOps g })) ∧
          (s.arbiter.slots ≤ s.arbiter.holders.length →
            (t.chan c).seq = { chosen with profile := s.loader.profileFor eff, nextBank := 0, state := .queued } ∧
            (t.chan c).ds = judged ∧
            t.arbiter = { s.arbiter with waitQueue := s.arbiter.waitQueue ++ [c] }))

/-- The alias is the first kept alias override that names the channel, and the profile the first kept profile of that
identity with a minimum level of 2 or below; without a descriptor there is neither (R95). A channel skips its test when a
kept skip-test override names it (R95, R96). -/
def Obligations.AliasAndProfileAreFirstKept : Prop :=
  ∀ (l : Loader) (c : Chan) (v : BitVec 16),
    (l.skips c = true ↔ (l.state = .valid ∨ l.state = .truncated) ∧ Override.skipTest c ∈ l.kept.overrides) ∧
    (∀ x, l.aliasFor c = some x ↔
      (l.state = .valid ∨ l.state = .truncated) ∧
      ∃ i : Nat, l.kept.overrides[i]? = some (.aliasId c x) ∧ ∀ j < i, ∀ y, l.kept.overrides[j]? ≠ some (.aliasId c y)) ∧
    ∀ k p, l.profileFor v = some (k, p) ↔
      (l.state = .valid ∨ l.state = .truncated) ∧
      l.kept.profiles[k]? = some p ∧ p.identity = v ∧ p.minLevel ≤ 2 ∧
      ∀ j < k, ∀ q, l.kept.profiles[j]? = some q → ¬(q.identity = v ∧ q.minLevel ≤ 2)

/-! ### The Descriptor Loader -/

/-- The status read and its 1 ms repetition (R122); a byte that ends no test joins the load buffer, and the byte that
completes the total length ends the reading (R123); a check that matches leads to parsing (R124). A 16-bit field is
little-endian (R159). -/
def Obligations.LoaderReadsImage : Prop :=
  (∀ (image : List Byte) (i : Nat), u8 image i = (image.getD i 0).toNat ∧
    u16 image i = (image.getD i 0).toNat + 256 * (image.getD (i + 1) 0).toNat ∧
    byteSum image = (image.map BitVec.toNat).sum) ∧
  ∀ (s : State) (status b : Byte) (order : List Chan), s.loader.state = .loading →
    (s.loader.stage = some .statusRead →
      (status.getLsbD 0 = false ∨ status = 0xFF#8 →
        exec (.statusReadComplete status) s = .next { s with
          loader := { s.loader with stage := some .imageRead, selected := true, sent := [0x03#8, 0#8, 0#8, 0#8],
                                    buffer := [] } }) ∧
      (status.getLsbD 0 = true → status ≠ 0xFF#8 →
        exec (.statusReadComplete status) s = .next { s with
          loader := { s.loader with stage := some .statusWait, selected := false, sent := [] } })) ∧
    (s.loader.stage = some .statusWait →
      exec .statusPollExpiry s = .next { s with
        loader := { s.loader with stage := some .statusRead, selected := true, sent := [0x05#8] } }) ∧
    (let image := s.loader.buffer ++ [b]
     s.loader.stage = some .imageRead →
     (image.length = 2 → image = [0xA5#8, 0x3C#8]) →
     (image.length = 4 → 16 ≤ u16 image 2 ∧ u16 image 2 ≤ 2048) →
     exec (.descriptorByte b order) s = .next { s with
       loader := if 4 ≤ image.length ∧ image.length = u16 image 2 then
           { s.loader with buffer := image, stage := some .check, selected := false, sent := [] }
         else { s.loader with buffer := image } }) ∧
    (s.loader.stage = some .check →
     (byteSum (s.loader.buffer.take 4) + byteSum (s.loader.buffer.drop 6)) % 65536 = u16 s.loader.buffer 4 →
     exec (.descriptorCheck order) s = .next { s with loader := { s.loader with stage := some .parse } })

/-- The load ends without a descriptor: ABSENT at a wrong signature, BAD at a total length out of range or a wrong check,
LATE at the limit's expiry; or parsing ends it VALID, or TRUNCATED at a malformed record, with what the image holds (R121,
R123 to R125, R132, R134). An expiry that the settled budget brings at once is taken before the channels select where
`expired` names it, and after the load's end otherwise (R94, R115, R117, R118, R120; log entry 7). A load that parses nothing
keeps nothing: no profile, override or extension, revision 0, report channel 0 and offset 0 (R121). -/
def Obligations.LoadEnds : Prop :=
  Kept.nothing = { profiles := [], overrides := [], budgetExt := none, capExt := none, openFailed := false, revision := 0,
                   reportChannel := 0, reportOffset := 0 } ∧
  ∀ (s : State) (b : Byte) (order : List Chan), s.loader.state = .loading →
    (let image := s.loader.buffer ++ [b]
     s.loader.stage = some .imageRead →
     (image.length = 2 → image ≠ [0xA5#8, 0x3C#8] →
       ∃ t, exec (.descriptorByte b order) s = .next t ∧ LoadEnded s t .absent Kept.nothing []) ∧
     (image.length = 4 → u16 image 2 < 16 ∨ 2048 < u16 image 2 →
       ∃ t, exec (.descriptorByte b order) s = .next t ∧ LoadEnded s t .bad Kept.nothing [])) ∧
    (s.loader.stage = some .check →
     (byteSum (s.loader.buffer.take 4) + byteSum (s.loader.buffer.drop 6)) % 65536 ≠ u16 s.loader.buffer 4 →
     ∃ t, exec (.descriptorCheck order) s = .next t ∧ LoadEnded s t .bad Kept.nothing []) ∧
    (s.loader.limitTimer = true →
     ∃ t, exec (.loadLimitExpiry order) s = .next t ∧ LoadEnded s t .late Kept.nothing []) ∧
    (s.loader.stage = some .parse → ∀ expired : List Chan,
     (∀ c ∈ expired, s.seqState c ∉ [SeqState.queued, .testing, .analysing]) →
     ∃ t, exec (.descriptorParse expired order) s = .next t ∧
       LoadEnded s t (if (parseImage s.loader.buffer).2 then .valid else .truncated) (parseImage s.loader.buffer).1
         expired)

/-- What parsing keeps of any image, and which images are VALID (R125 to R131): the header fields; of the extension records,
from byte 16 to the chain's end, the first budget and the first cap with data enough, the cap clamped to 32; the overrides
of a defined type and channel, the first 8 in order; the profiles that R130 takes, the first 16 in order. The image is VALID
unless a record is malformed; what was kept before that record stands, and nothing after it is read. -/
def Obligations.ParsedResults : Prop :=
  ∀ image : List Byte,
    let k := (parseImage image).1
    let valid := (parseImage image).2
    k.revision = BitVec.ofNat 16 (u16 image 6) ∧
    k.reportChannel.val = (if u8 image 10 < 4 then u8 image 10 else 0) ∧ k.reportOffset = u16 image 11 ∧
    k.openFailed = decide (u8 image 13 % 2 = 1) ∧
    k.profiles.length ≤ 16 ∧ k.overrides.length ≤ 8 ∧ (∀ n, k.capExt = some n → n ≤ 32) ∧
    (∀ p ∈ k.profiles, 1 ≤ p.elements.length ∧ p.elements.length ≤ 12 ∧
      ∀ e ∈ p.elements, 1 ≤ e.count ∧ e.count ≤ 4 ∧ e.ops.length = 4) ∧
    ∃ exts e1, Chained (u16 image) (extensionSound image) 16 exts e1 ∧ ¬extensionSound image e1 ∧
      k.budgetExt = ((exts.filter fun p => u16 image (p + 2) = 1 ∧ 6 ≤ u16 image p).head?.map fun p => u16 image (p + 4)) ∧
      k.capExt =
        ((exts.filter fun p => u16 image (p + 2) = 2 ∧ 5 ≤ u16 image p).head?.map fun p => min (u8 image (p + 4)) 32) ∧
      (¬(e1 + 2 ≤ image.length ∧ u16 image e1 = 0) → valid = false ∧ k.overrides = [] ∧ k.profiles = []) ∧
      (e1 + 2 ≤ image.length ∧ u16 image e1 = 0 →
        let starts := (List.range (u8 image 9)).map fun i => e1 + 2 + 4 * i
        let at3 := e1 + 2 + 4 * u8 image 9
        k.overrides = (((starts.filter fun p => p + 4 ≤ image.length).filterMap (overrideKept image)).take 8) ∧
        (image.length < at3 → valid = false ∧ k.profiles = []) ∧
        (at3 ≤ image.length →
          ∃ profs e3, Chained (u16 image) (profileSound image) at3 profs e3 ∧ profs.length ≤ u8 image 8 ∧
            (profs.length < u8 image 8 → ¬profileSound image e3) ∧
            k.profiles = (((profs.filter fun p => profileTaken image p).map (profileKept image)).take 16) ∧
            valid = decide (profs.length = u8 image 8)))

/-- A march element laid out by section 11.4 is read back as itself, whatever its ignored bits hold (R159). -/
def Obligations.ElementRoundTrip : Prop :=
  ∀ (o1 o2 o3 o4 : MarchOp) (down top : Bool) (count rep pause : Nat) (b : Background) (ignored : Byte)
    (before rest : List Byte), count < 8 → rep < 16 → pause < 16 →
    let opCode : MarchOp → Nat := fun o => match o with
      | .w0 => 0
      | .w1 => 1
      | .r0 => 2
      | .r1 => 3
    let bgCode : Nat := match b with
      | .solid => 0
      | .checker => 1
      | .rowStripe => 2
      | .columnStripe => 3
    let bytes : List Byte :=
      [BitVec.ofNat 8 (opCode o1 + 4 * opCode o2 + 16 * opCode o3 + 64 * opCode o4),
       BitVec.ofNat 8 (count + 8 * (if down then 1 else 0) + 32 * bgCode + 128 * (if top then 1 else 0)),
       BitVec.ofNat 8 (rep + 16 * pause), ignored]
    decodeElement (before ++ bytes ++ rest) before.length =
      { down := down, ops := [o1, o2, o3, o4], count := count, background := b, repeatCode := rep, pauseCode := pause }

/-! ### The budget -/

/-- An expiry from DONE on changes the timer alone (R120); in ANALYSING it is noted and the analysis goes on (R119); a timer
that is not running delivers none (R115, R116). -/
def Obligations.BudgetExpiryWithoutEffect : Prop :=
  ∀ (s : State) (c : Chan),
    (∀ ms, (s.chan c).seq.timer = .running ms →
      (s.seqState c ∈ [SeqState.done, .opened, .draining, .closing, .failed, .absent] →
        ∃ t, exec (.budgetExpiry c) s = .next t ∧ OnlyChannel c s t ∧
          t.chan c = { s.chan c with seq := { (s.chan c).seq with timer := .expired } }) ∧
      (s.seqState c = .analysing →
        ∃ t, exec (.budgetExpiry c) s = .next t ∧ OnlyChannel c s t ∧
          t.chan c = { s.chan c with seq := { (s.chan c).seq with timer := .expired, budgetExpired := true } })) ∧
    ((∀ ms, (s.chan c).seq.timer ≠ .running ms) → exec (.budgetExpiry c) s = .next s)

/-- An expiry in POWERING or IDENTIFYING fails the channel NOT_READY, a width check's operation then completing with its data
discarded (R92, R117); in SELECTING it makes the channel select on the identity as read, without the loader (R118), and with
strap bit 5 at 0 open at once, with credit count 16 and RESTORE 16 (R99, R137). That the
identity select lines keep the value last driven when the expiry stops an identity read (log entry 22), and that a report
operation which a retest left stands in IDENTIFYING, to complete (log entry 27), are the model's choices. -/
def Obligations.BudgetExpiryBeforeTesting : Prop :=
  ∀ (s : State) (c : Chan) (ms : Nat), SequencerLaw s → WriterLaw s → (s.chan c).seq.timer = .running ms →
    (s.seqState c = .powering ∨ s.seqState c = .identifying →
      ∃ t, exec (.budgetExpiry c) s = .next t ∧ FailedWith t c .notReady ∧ Around c s t ∧
        (t.chan c).seq = { (s.chan c).seq with
          timer := .expired, supplyWait := false, ident := .idle, state := .failed, result := .failed,
          reason := .notReady } ∧
        KeepsRepairs (s.chan c) (t.chan c) ∧ (t.chan c).port = (s.chan c).port ∧
        (t.chan c).ds = { (s.chan c).ds with
          ops := if s.seqState c = .identifying then (s.chan c).ds.ops.map DsOp.discardWidth else (s.chan c).ds.ops }) ∧
    ∀ v w, s.seqState c = .selecting → (s.chan c).seq.identityRead = some v → (s.chan c).seq.width = some w →
      ∃ t, exec (.budgetExpiry c) s = .next t ∧ Around c s t ∧
        let chosen : Sequencer := { (s.chan c).seq with timer := .expired, effective := some v, aliasUsed := false }
        (t.chan c).log = (s.chan c).log ∧ (t.chan c).remap = (s.chan c).remap ∧ KeepsStream (s.chan c).ds (t.chan c).ds ∧
        (decodeIdentity v w = none →
          FailedWith t c .geometry ∧ (t.chan c).geometry = (s.chan c).geometry ∧ (t.chan c).port = (s.chan c).port ∧
          (t.chan c).seq = { chosen with state := .failed, result := .failed, reason := .geometry }) ∧
        ∀ g, decodeIdentity v w = some g →
          (t.chan c).geometry = some g ∧ t.board.fault = true ∧
          (t.chan c).seq = { chosen with
            profile := none, result := .untested, reason := .unset,
            state := if strapPublish s.strap then .done else .opened } ∧
          (t.chan c).port = portWhenDone s.strap (s.chan c).port

/-- An expiry in QUEUED takes the channel out of the wait queue and ends its testing with the result of R68; with strap bit 5
at 0 the channel opens at once, with credit count 16 and RESTORE 16 (R98, R99, R113, R119, R137). -/
def Obligations.BudgetExpiryInQueued : Prop :=
  ∀ (s : State) (c : Chan) (ms : Nat), SequencerLaw s → WriterLaw s →
    (s.chan c).seq.timer = .running ms → s.seqState c = .queued →
    ∃ t, exec (.budgetExpiry c) s = .next t ∧
      let r := (s.chan c).endResult s.loader.kept.openFailed
      (t.chan c).seq = { (s.chan c).seq with
        timer := .expired, result := r, reason := (s.chan c).endReason,
        state := if r = .failed then .failed else if strapPublish s.strap then .done else .opened } ∧
      (t.chan c).port = (if r = .failed then (s.chan c).port else portWhenDone s.strap (s.chan c).port) ∧
      KeepsStream (s.chan c).ds (t.chan c).ds ∧
      t.board.fault = (s.board.fault || !(r = .clean || r = .repaired)) ∧
      KeepsRepairs (s.chan c) (t.chan c) ∧ KeepsShared s t ∧
      t.arbiter = { s.arbiter with waitQueue := s.arbiter.waitQueue.filter fun h => h != c } ∧
      ∀ d, d ≠ c → KeepsRecord (s.chan d) (t.chan d)

/-- An expiry in TESTING, a pause included, abandons the sweep: withholding ends, what was handed over is discarded without
compare, the slot passes on, and the bank is analysed as truncated (R31, R53, R62, R97, R112, R119). The operations of the
abandoned sweep then complete: their writes reach memory, and nothing else changes (R31; in one command as far as the read
data go: log entry 16). -/
def Obligations.BudgetExpiryInTesting : Prop :=
  (∀ (op : DsOp) (how : MarchOp), (∀ live, op.owner = .sweep live how → op.discardSweep = { op with owner := .sweep false how }) ∧
    ((∀ live how, op.owner ≠ .sweep live how) → op.discardSweep = op)) ∧
  (∀ (s : State) (c : Chan) (reads : List Block) (ops rest : List DsOp), (s.chan c).ds.ops = ops ++ rest → ops ≠ [] →
    (∀ op ∈ ops, ∃ how, op.owner = .sweep false how) → (∀ op how, rest.head? = some op → op.owner ≠ .sweep false how) →
    (ops.filter fun op => op.write = none).length ≤ reads.length →
    ∃ t, exec (.sweepOpsComplete c reads) s = .next t ∧ OnlyChannel c s t ∧
      t.chan c = { s.chan c with
        ds := { (s.chan c).ds with ops := rest, written := landAll ops (s.chan c).ds.written } }) ∧
  ∀ (s : State) (c : Chan) (ms : Nat), SequencerLaw s →
    (s.chan c).seq.timer = .running ms → s.seqState c = .testing →
    ∃ t, exec (.budgetExpiry c) s = .next t ∧
      SweepEnded s t c (s.chan c).log (s.chan c).seq.causes false (s.chan c).seq.nextBank ∧ HeadGranted s t ∧
      (t.chan c).seq.timer = .expired ∧ (t.chan c).seq.budgetExpired = true ∧
      (t.chan c).seq.fullySwept = (s.chan c).seq.fullySwept ∧
      (t.chan c).ds.ops = (s.chan c).ds.ops.map DsOp.discardSweep ∧ (t.chan c).ds.written = (s.chan c).ds.written

/-- The end result takes the first line of R68's table that applies. -/
def Obligations.EndResultTable : Prop :=
  ∀ (ch : Channel) (g : Geometry) (openFailed : Bool), ch.geometry = some g →
    let failure := ch.seq.causes.unrepairable = true ∨ ch.seq.causes.column = true ∨ ch.seq.causes.overflow = true
    let swept := ∀ b < g.banks, b ∈ ch.seq.fullySwept
    (ch.seq.causes.any = true ↔ failure) ∧
    (failure → openFailed = true → ch.endResult openFailed = .degraded) ∧
    (failure → openFailed = false → ch.endResult openFailed = .failed) ∧
    (failure → ch.endReason = .repair) ∧ (¬failure → ch.endReason = .unset) ∧
    (¬failure → ch.seq.entered = [] → ch.endResult openFailed = .untested) ∧
    (¬failure → ch.seq.entered ≠ [] → ¬swept → ch.endResult openFailed = .partly) ∧
    (¬failure → ch.seq.entered ≠ [] → swept → ch.log.records = [] → ch.endResult openFailed = .clean) ∧
    (¬failure → ch.seq.entered ≠ [] → swept → ch.log.records ≠ [] → ch.endResult openFailed = .repaired)

/-! ### Testing a bank -/

/-- A block whose reads all return what they expect leaves no trace but its writes, and the walk goes on to the next block
(R20, R22, R27, R29). In the model's record of DRAM writes (log entry 3) a completed write leaves its 64 bytes at its bank,
row and columns (R10, R35), an abandoned one takes them out (R32, R101), and a half width takes out lanes 32 to 63 (R92). -/
def Obligations.SweepBlockPasses : Prop :=
  (∀ (op : DsOp) (data : Block) (m : List Host.Cell),
    let place (i : Nat) : Nat := match op.layout with
      | .full => ((op.bank * 65536 + op.row) * 2048 + (op.col * 8 + i / 8)) * 8 + i % 8
      | .half => ((op.bank * 65536 + op.row) * 2048 + (op.col * 16 + i / 4)) * 8 + i % 4
    (∀ i < 64, memGet (dramLand op data m) (place i) = some (data.extractLsb' (8 * i) 8)) ∧
    (op.write ≠ none → ∀ i < 64, memGet (dramDoubt op m) (place i) = none) ∧
    (op.write = none → dramDoubt op m = m) ∧
    (∀ x, (∀ i < 64, x ≠ place i) →
      memGet (dramLand op data m) x = memGet m x ∧ memGet (dramDoubt op m) x = memGet m x) ∧
    ∀ x, memGet (dropUpperLanes m) x = if x % 8 < 4 then memGet m x else none) ∧
  ∀ (s : State) (c : Chan) (m : Sweep) (g : Geometry) (e : Element) (row col : Nat),
    (s.chan c).march = some m → (s.chan c).geometry = some g → m.current = some e → e.applied ≠ [] →
    (s.chan c).ds.ops = m.blockOps g → walkNext g e.down m.row m.col = some (row, col) →
    ∃ t, exec (.sweepOpsComplete c (expectedReads g.width e m.row m.col)) s = .next t ∧ OnlyChannel c s t ∧
      t.chan c = { s.chan c with
        march := some { m with row := row, col := col },
        ds := { (s.chan c).ds with
          ops := ({ m with row := row, col := col } : Sweep).blockOps g,
          written := landAll (m.blockOps g) (s.chan c).ds.written } }

/-- The walk of a pass (R22): rows and block columns in ascending order, and a down pass the exact reverse. A pass begins at the
first block of its element's direction with the pass-failed note clear, and a sweep with pass 1 of element 1 (R24, R27). -/
def Obligations.WalkOrder : Prop :=
  (∀ g : Geometry, walkStart g false = (0, 0) ∧ walkStart g true = (g.rows - 1, g.blocksPerRow - 1)) ∧
  (∀ (m : Sweep) (g : Geometry) (n pass : Nat) (e : Element), 1 ≤ n → m.march[n - 1]? = some e →
    m.beginPass g n pass = { m with
      element := n, pass := pass, passFailed := false, pause := none,
      row := if e.down = true then g.rows - 1 else 0, col := if e.down = true then g.blocksPerRow - 1 else 0 }) ∧
  (∀ (g : Geometry) (march : List Element) (bank : Nat) (e : Element), march[0]? = some e →
    Sweep.start march bank g =
      { march := march, bank := bank, element := 1, pass := 1, passFailed := false, pause := none,
        row := if e.down = true then g.rows - 1 else 0, col := if e.down = true then g.blocksPerRow - 1 else 0 }) ∧
  ∀ (g : Geometry) (r k r' k' : Nat), r < g.rows → k < g.blocksPerRow → r' < g.rows → k' < g.blocksPerRow →
    (walkNext g false r k = some (r', k') ↔ r' * g.blocksPerRow + k' = r * g.blocksPerRow + k + 1) ∧
    (walkNext g true r' k' = some (r, k) ↔ walkNext g false r k = some (r', k')) ∧
    (walkNext g false r k = none ↔ (r, k) = walkStart g true) ∧ (walkNext g true r k = none ↔ (r, k) = walkStart g false)

/-- What a sweep writes and expects, and what a compare finds. D of a column word is zeros for solid, and ones for an odd
row + column, row or column by the background (R21); an operation 0 writes or expects D, an operation 1 its complement, in
every lane (R20); without a profile the march is the default march (R34), with one its elements (R19). The operations of a
block are those of the element running, in list order, each at the sweep's bank and the block's row and block column (R20,
R27); an element is after a pause when the one before it has an effective pause code above 0 (R25). The failing columns
of a read are those with a differing lane, in ascending order, and the lane mask marks each lane that differs in one of them
(R3, R10, R29, R30). -/
def Obligations.CompareFindsFailures : Prop :=
  (∀ (w : Width) (b : Background) (row col : Nat) (how : MarchOp) (j L : Nat), j < w.columnsPerBlock → L < w.lanes →
    let column := col * w.columnsPerBlock + j
    let ones : Bool := match b with
      | .solid => false
      | .checker => decide ((row + column) % 2 = 1)
      | .rowStripe => decide (row % 2 = 1)
      | .columnStripe => decide (column % 2 = 1)
    (patternBlock w b row col how.inverts).getLsbD (8 * w.wordBytes * j + L) =
      (if how = .w1 ∨ how = .r1 then !ones else ones)) ∧
  (∀ q : Sequencer, (∀ k p, q.profile = some (k, p) → q.march = p.elements) ∧
    (q.profile = none → q.march =
      let element (down : Bool) (ops : List MarchOp) (pause : Nat) : Element :=
        { down := down, ops := ops, count := ops.length, background := .checker, repeatCode := 1, pauseCode := pause }
      [element false [.w0] 0, element false [.r0, .w1] 0, element false [.r1, .w0] 0, element true [.r0, .w1] 0,
       element true [.r1, .w0] 4, element false [.r0] 0])) ∧
  (∀ (m : Sweep) (e : Element), m.current = some e ↔ 1 ≤ m.element ∧ m.march[m.element - 1]? = some e) ∧
  (∀ (m : Sweep) (g : Geometry) (e : Element), m.current = some e →
    e.applied = e.ops.take e.count ∧
    m.blockOps g = (e.ops.take e.count).map fun how =>
      { owner := .sweep true how,
        write := if how = .w0 ∨ how = .w1 then some (patternBlock g.width e.background m.row m.col how.inverts) else none,
        bank := m.bank, row := m.row, col := m.col, layout := g.width }) ∧
  (∀ how : MarchOp, how.writes = true ↔ how = .w0 ∨ how = .w1) ∧
  (∀ (strap : BitVec 8) (march : List Element) (n : Nat), afterPause strap march n = true ↔
    2 ≤ n ∧ ∃ e, march[n - 2]? = some e ∧ strapPauses strap = true ∧ 0 < e.pauseCode) ∧
  ∀ (w : Width) (col : Nat) (data expected : Block),
    let differs (j L : Nat) : Prop := data.getLsbD (8 * w.wordBytes * j + L) ≠ expected.getLsbD (8 * w.wordBytes * j + L)
    (∀ x, x ∈ failingColumns w col data expected ↔
      ∃ j < w.columnsPerBlock, x = col * w.columnsPerBlock + j ∧ ∃ L < w.lanes, differs j L) ∧
    (failingColumns w col data expected).Pairwise (fun x y => x < y) ∧
    ∀ L, (failingLanes w data expected).getLsbD L = true ↔
      L < w.lanes ∧ ∃ j < w.columnsPerBlock, differs j L

/-- The reads of a block, failing or not, in an element of one to four operations: each failing read hands the Fail Log its
event, in order, and the pass-failed note is set if there was one; the operations before and after it are done as ever, and
the walk goes on (R20, R24, R27, R29, R30, R39). -/
def Obligations.SweepReadFails : Prop :=
  ∀ (s : State) (c : Chan) (m : Sweep) (g : Geometry) (e : Element) (reads : List Block) (row col : Nat),
    (s.chan c).march = some m → (s.chan c).geometry = some g → m.current = some e → e.applied ≠ [] →
    (s.chan c).ds.ops = m.blockOps g → walkNext g e.down m.row m.col = some (row, col) → reads.length = e.readCount →
    let events := m.events g e s.strap reads
    let taken := (s.chan c).log.takeAll g.visibleRows events
    taken.2 = false →
    let next : Sweep := { m with row := row, col := col, passFailed := m.passFailed || !events.isEmpty }
    ∃ t, exec (.sweepOpsComplete c reads) s = .next t ∧ OnlyChannel c s t ∧
      t.chan c = { s.chan c with
        log := taken.1,
        march := some next,
        ds := { (s.chan c).ds with ops := next.blockOps g, written := landAll (m.blockOps g) (s.chan c).ds.written } }

/-- A failing read whose event overflows the log abandons the sweep, wherever it stands in its element and in the bank: cause
OVERFLOW, the slot passed on, the bank analysed as truncated, and no record added (R30, R31, R47, R53, R65). That the rest of
the block completes in the same step, without compare, is the model's reading (log entry 16). -/
def Obligations.SweepOverflow : Prop :=
  ∀ (s : State) (c : Chan) (m : Sweep) (g : Geometry) (e : Element) (reads : List Block),
    SequencerLaw s →
    (s.chan c).march = some m → (s.chan c).geometry = some g → m.current = some e →
    (s.chan c).ds.ops = m.blockOps g → reads.length = e.readCount → m.events g e s.strap reads ≠ [] →
    m.row < g.visibleRows → 128 ≤ (s.chan c).log.records.length →
    (∀ r ∈ (s.chan c).log.records, ¬(r.bank = m.bank ∧ r.row = m.row)) →
    ∃ t, exec (.sweepOpsComplete c reads) s = .next t ∧
      SweepEnded s t c (s.chan c).log { (s.chan c).seq.causes with overflow := true } false m.bank ∧ HeadGranted s t ∧
      (t.chan c).seq.causes.overflow = true ∧ (t.chan c).seq.fullySwept = (s.chan c).seq.fullySwept ∧
      (t.chan c).seq.budgetExpired = (s.chan c).seq.budgetExpired ∧ (t.chan c).seq.timer = (s.chan c).seq.timer ∧
      (t.chan c).log.failedSpares = (s.chan c).log.failedSpares ∧
      (t.chan c).log.records.map (fun r => (r.bank, r.row, r.columns, r.count)) =
        (s.chan c).log.records.map (fun r => (r.bank, r.row, r.columns, r.count)) ∧
      (t.chan c).ds.ops = [] ∧ (t.chan c).ds.written = landAll (m.blockOps g) (s.chan c).ds.written

/-- The end of a pass, whose last block may have failing reads (R23 to R26, R28 to R30): another pass of the element, its
pause with refresh withheld, pass 1 of the next element, or the sweep's completion. -/
def Obligations.SweepPassEnds : Prop :=
  ∀ (s : State) (c : Chan) (m : Sweep) (g : Geometry) (e : Element) (reads : List Block), SequencerLaw s →
    (s.chan c).march = some m → (s.chan c).geometry = some g → m.current = some e → e.applied ≠ [] →
    (s.chan c).ds.refreshWithheld = false →
    (s.chan c).ds.ops = m.blockOps g → walkNext g e.down m.row m.col = none → reads.length = e.readCount →
    let events := m.events g e s.strap reads
    let taken := (s.chan c).log.takeAll g.visibleRows events
    taken.2 = false →
    let failed := m.passFailed || !events.isEmpty
    let again : Prop := (e.repeatCode = 0 ∧ failed = true ∧ m.pass < 8) ∨
                        (e.repeatCode ≠ 0 ∧ m.pass < min e.repeatCode 8)
    let written := landAll (m.blockOps g) (s.chan c).ds.written
    ∃ t, exec (.sweepOpsComplete c reads) s = .next t ∧
      (again → OnlyChannel c s t ∧
        t.chan c = { s.chan c with
          log := taken.1,
          march := some (m.beginPass g m.element (m.pass + 1)),
          ds := { (s.chan c).ds with ops := (m.beginPass g m.element (m.pass + 1)).blockOps g, written := written } }) ∧
      (¬again → strapPauses s.strap = true → 0 < e.pauseCode → OnlyChannel c s t ∧
        t.chan c = { s.chan c with
          log := taken.1,
          march := some { m with passFailed := failed, pause := some (8 * e.pauseCode) },
          ds := { (s.chan c).ds with ops := [], refreshWithheld := true, written := written } }) ∧
      (¬again → strapPauses s.strap = false ∨ e.pauseCode = 0 →
        (m.element < m.march.length → OnlyChannel c s t ∧
          t.chan c = { s.chan c with
            log := taken.1,
            march := some (m.beginPass g (m.element + 1) 1),
            ds := { (s.chan c).ds with ops := (m.beginPass g (m.element + 1) 1).blockOps g, written := written } }) ∧
        (m.march.length ≤ m.element →
          SweepEnded s t c taken.1 (s.chan c).seq.causes true m.bank ∧ HeadGranted s t ∧
          (t.chan c).seq.budgetExpired = (s.chan c).seq.budgetExpired ∧ (t.chan c).seq.timer = (s.chan c).seq.timer ∧
          (t.chan c).seq.fullySwept = (s.chan c).seq.fullySwept ++ [m.bank] ∧
          (t.chan c).ds.ops = [] ∧ (t.chan c).ds.written = written))

/-- The pause's expiry ends withholding; pass 1 of the next element begins, or the sweep completes (R26, R28, R53). -/
def Obligations.PauseExpiryGoesOn : Prop :=
  ∀ (s : State) (c : Chan) (m : Sweep) (g : Geometry) (ms : Nat), SequencerLaw s →
    (s.chan c).march = some m → (s.chan c).geometry = some g → m.pause = some ms →
    ∃ t, exec (.pauseExpiry c) s = .next t ∧
      (m.element < m.march.length → OnlyChannel c s t ∧
        t.chan c = { s.chan c with
          march := some (m.beginPass g (m.element + 1) 1),
          ds := { (s.chan c).ds with
            refreshWithheld := false,
            ops := (s.chan c).ds.ops ++ (m.beginPass g (m.element + 1) 1).blockOps g } }) ∧
      (m.march.length ≤ m.element →
        SweepEnded s t c (s.chan c).log (s.chan c).seq.causes true m.bank ∧ HeadGranted s t ∧
        (t.chan c).seq.budgetExpired = (s.chan c).seq.budgetExpired ∧ (t.chan c).seq.timer = (s.chan c).seq.timer ∧
        (t.chan c).seq.fullySwept = (s.chan c).seq.fullySwept ++ [m.bank] ∧
        (t.chan c).ds.ops = (s.chan c).ds.ops ∧ (t.chan c).ds.written = (s.chan c).ds.written)

/-! ### The Fail Log -/

/-- The four cases of a fail event, the first that applies (R39, R40, R41, R43, R44, R46, R47); and the
column list of a record (R42): the columns first seen, up to four in the order of observation, each once, a fifth setting
the many-columns flag, which stays set. -/
def Obligations.FailLogTakesEvent : Prop :=
  (∀ (l : FailLog) (visible : Nat) (ev : FailEvent),
    let has : Prop := ∃ r ∈ l.records, r.bank = ev.bank ∧ r.row = ev.row
    (visible ≤ ev.row →
      (l.take visible ev).2 = false ∧ (l.take visible ev).1.records = l.records ∧
      ∀ x, x ∈ (l.take visible ev).1.failedSpares ↔ x ∈ l.failedSpares ∨ x = (ev.bank, ev.row - visible)) ∧
    (ev.row < visible → has →
      l.take visible ev = ({ l with records := l.records.map fun r =>
        if r.bank = ev.bank ∧ r.row = ev.row then
          { r with columns := (mergeColumns r.columns r.many ev.columns).1,
                   many := (mergeColumns r.columns r.many ev.columns).2,
                   lanes := r.lanes ||| ev.lanes, count := if r.count < 255 then r.count + 1 else 255 }
        else r }, false)) ∧
    (ev.row < visible → ¬has → l.records.length < 128 →
      l.take visible ev = ({ l with records := l.records ++
        [{ bank := ev.bank, row := ev.row, columns := (mergeColumns [] false ev.columns).1,
           many := (mergeColumns [] false ev.columns).2, lanes := ev.lanes, count := 1, firstElement := ev.element,
           retention := ev.afterPause, status := .pending, target := none }] }, false)) ∧
    (ev.row < visible → ¬has → 128 ≤ l.records.length → l.take visible ev = (l, true))) ∧
  ∀ (cols fresh : List Nat) (many : Bool), cols.length ≤ 4 → fresh.Nodup →
    mergeColumns cols many fresh =
      ((cols ++ fresh.filter fun x => !cols.contains x).take 4,
       many || decide (4 < (cols ++ fresh.filter fun x => !cols.contains x).length))

/-! ### Repair analysis -/

/-- The order of candidates (R57) and the bank spare a candidate takes (R58): descending fail count, ties in log order; the
lowest index below the spare count that neither failed nor was given out by this analysis. And what an analysis does with a
bank that is not column-faulted (R58 to R63, R65): of a complete bank, the candidates of count T or more take the good spares
in ascending order, each REPAIRED_SPARE with its remap entry; the next candidate waits for its shadow claim while the channel
holds fewer entries than its cap, else those left become UNREPAIRABLE; then, with the repair-marginal flag, the records below
T take the spares left, and the others become MARGINAL. Of a truncated bank no candidate takes a spare. -/
def Obligations.CandidateOrderAndSpare : Prop :=
  (∀ l : List FailRecord, (byCount l).Perm l ∧ (byCount l).Pairwise (fun x y => y.count ≤ x.count) ∧
    ∀ n, (byCount l).filter (fun r => r.count = n) = l.filter fun r => r.count = n) ∧
  (∀ (a : Analysis) (l : FailLog) (spares : Nat),
    let good (k : Nat) : Prop := k < spares ∧ (a.bank, k) ∉ l.failedSpares ∧ k ∉ a.given
    (∀ k, a.goodSpare l spares = some k ↔ good k ∧ ∀ j < k, ¬good j) ∧
    (a.goodSpare l spares = none ↔ ∀ k, ¬good k)) ∧
  ∀ (ch : Channel) (bank : Nat) (complete : Bool) (cap : Nat),
    (ch.log.records.map fun r => (r.bank, r.row)).Nodup →
    let recs := ch.log.records.filter fun r => r.bank = bank ∧ r.status = .pending
    ¬(∃ x, (∃ r ∈ recs, x ∈ r.columns) ∧ ch.seq.columnThreshold ≤ (recs.filter fun r => x ∈ r.columns).length) →
    Treated ch
      { phase := .primary, bank := bank, complete := complete, t := ch.seq.threshold, c := ch.seq.columnThreshold,
        repairMarginal := ch.seq.repairsMarginal, cap := cap, candidates := [], given := [] }
      ((byCount (recs.filter fun r => ch.seq.threshold ≤ r.count)).map FailRecord.row)
      (ch.beginAnalysis bank complete cap)

/-- The thresholds in force (R54): of the selected profile, codes above 15 taken as 15, or the default march's. And the
column check (R55, R56): a bank in which some listed column fails in C rows or more turns every PENDING record of the bank to
COLUMN, notes cause COLUMN and spends no spare; otherwise no record becomes COLUMN. -/
def Obligations.ColumnFaultedBank : Prop :=
  (∀ q : Sequencer,
    (∀ k p, q.profile = some (k, p) →
      q.threshold = min p.tCode 15 + 1 ∧ q.columnThreshold = 2 * min p.cCode 15 + 2 ∧
      q.repairsMarginal = p.repairMarginal) ∧
    (q.profile = none → q.threshold = 1 ∧ q.columnThreshold = 8 ∧ q.repairsMarginal = false)) ∧
  ∀ (ch : Channel) (bank : Nat) (complete : Bool) (cap : Nat),
    let recs := ch.log.records.filter fun r => r.bank = bank ∧ r.status = .pending
    let faulted : Prop := ∃ x, (∃ r ∈ recs, x ∈ r.columns) ∧
      ch.seq.columnThreshold ≤ (recs.filter fun r => x ∈ r.columns).length
    let out := ch.beginAnalysis bank complete cap
    (faulted →
      out.log.records = ch.log.records.map (fun r =>
        if r.bank = bank ∧ r.status = .pending then { r with status := .column, target := none } else r) ∧
      out.remap = ch.remap ∧ out.seq = { ch.seq with causes := { ch.seq.causes with column := true } } ∧
      ∃ a, out.analyser = some a ∧ a.phase = .checking) ∧
    (¬faulted →
      out.seq.causes.column = ch.seq.causes.column ∧
      ∀ r ∈ out.log.records, r.status = .column → r ∈ ch.log.records)

/-- A truncated bank's analysis gives out no bank spare (R62): up to its first claim or its end it adds no remap entry, and
each record stands as it was or, if it was a PENDING record of the bank, becomes UNREPAIRABLE, MARGINAL or COLUMN. -/
def Obligations.TruncatedAnalysisGivesNoSpare : Prop :=
  ∀ (ch : Channel) (bank cap : Nat),
    let out := ch.beginAnalysis bank false cap
    out.remap = ch.remap ∧ out.log.failedSpares = ch.log.failedSpares ∧
    ((ch.log.records.map fun r => (r.bank, r.row)).Nodup →
      List.Forall₂ (fun (r r' : FailRecord) =>
        r' = r ∨ r.bank = bank ∧ r.status = .pending ∧
          ∃ st ∈ [RecStatus.unrepairable, .marginal, .column], r' = { r with status := st, target := none })
        ch.log.records out.log.records)

/-- SHADOW_CLAIM (R59 to R61, R63, R65, R79): with an entry free, the lowest is granted and filled with zeros, the candidate
is REPAIRED_SHADOW and the remap entry added; with none free, the pool stands and the candidate is UNREPAIRABLE with its
cause. In the same step the analysis treats the candidates after it, up to its next claim or its end. -/
def Obligations.ShadowClaimAnswered : Prop :=
  ∀ (s : State) (c : Chan) (a : Analysis) (row : Nat) (rest : List Nat), LogLaw s → RepairLaw s →
    (s.chan c).analyser = some a → a.phase = .claiming → a.candidates = row :: rest →
    let ch := s.chan c
    let marked (st : RecStatus) (target : Option Nat) : FailLog :=
      { ch.log with records := ch.log.records.map fun r =>
          if r.bank = a.bank ∧ r.row = row then { r with status := st, target := target } else r }
    ∃ t, exec (.shadowClaim c) s = .next t ∧
      t = { s with chans := t.chans, shadow := t.shadow } ∧ (∀ d, d ≠ c → t.chan d = s.chan d) ∧
      (∀ e : Fin 32, s.shadow.holders[e] = none → (∀ f : Fin 32, f < e → s.shadow.holders[f] ≠ none) →
        t.shadow.holders = s.shadow.holders.set e.val (some c) ∧ t.shadow.cap = s.shadow.cap ∧
        (∀ o < 16384, shadowRead t.shadow.store (e.val * 16384 + o) = 0) ∧
        (∀ x, x / 16384 ≠ e.val → shadowRead t.shadow.store x = shadowRead s.shadow.store x) ∧
        Treated
          { ch with log := marked .repairedShadow (some e.val),
                    remap := ch.remap ++ [{ bank := a.bank, row := row, target := .shadow e.val }] }
          a rest (t.chan c) ∧
        ∃ r ∈ (t.chan c).log.records, r.bank = a.bank ∧ r.row = row ∧ r.status = .repairedShadow ∧
          r.target = some e.val) ∧
      ((∀ e : Fin 32, s.shadow.holders[e] ≠ none) →
        t.shadow = s.shadow ∧
        Treated
          { ch with log := marked .unrepairable none,
                    seq := { ch.seq with causes := { ch.seq.causes with unrepairable := true } } }
          a rest (t.chan c) ∧
        ∃ r ∈ (t.chan c).log.records, r.bank = a.bank ∧ r.row = row ∧ r.status = .unrepairable ∧ r.target = none)

/-- ANALYSIS_COMPLETE (R64, R68, R97, R98, R111): the channel asks for a slot for its next bank, or its testing ends. With a
slot free its sweep starts, and the operations of the first block are handed over (R27). -/
def Obligations.AnalysisCompleteGoesOn : Prop :=
  ∀ (s : State) (c : Chan) (a : Analysis) (g : Geometry), SequencerLaw s → WriterLaw s →
    s.seqState c = .analysing → (s.chan c).analyser = some a → a.phase ≠ .claiming → (s.chan c).geometry = some g →
    ∃ t, exec (.analysisComplete c) s = .next t ∧ (t.chan c).analyser = none ∧
      KeepsRepairs (s.chan c) (t.chan c) ∧
      ((s.chan c).seq.budgetExpired = false → a.bank + 1 < g.banks →
        (t.chan c).port = (s.chan c).port ∧
        t = { s with chans := t.chans, arbiter := t.arbiter } ∧ (∀ d, d ≠ c → t.chan d = s.chan d) ∧
        (s.arbiter.holders.length < s.arbiter.slots →
          (t.chan c).seq = { (s.chan c).seq with
            nextBank := a.bank + 1, state := .testing, entered := (s.chan c).seq.entered ++ [a.bank + 1] } ∧
          t.arbiter = { s.arbiter with holders := s.arbiter.holders ++ [c] } ∧
          (let m := Sweep.start (s.chan c).seq.march (a.bank + 1) g
           (t.chan c).march = some m ∧
             (t.chan c).ds = { (s.chan c).ds with ops := (s.chan c).ds.ops ++ m.blockOps g })) ∧
        (s.arbiter.slots ≤ s.arbiter.holders.length →
          (t.chan c).seq = { (s.chan c).seq with nextBank := a.bank + 1, state := .queued } ∧
          (t.chan c).ds = (s.chan c).ds ∧
          t.arbiter = { s.arbiter with waitQueue := s.arbiter.waitQueue ++ [c] })) ∧
      ((s.chan c).seq.budgetExpired = true ∨ g.banks ≤ a.bank + 1 →
        let r := (s.chan c).endResult s.loader.kept.openFailed
        (t.chan c).seq = { (s.chan c).seq with
          result := r, reason := (s.chan c).endReason,
          state := if r = .failed then .failed else if strapPublish s.strap then .done else .opened } ∧
        (t.chan c).port = (if r = .failed then (s.chan c).port else portWhenDone s.strap (s.chan c).port) ∧
        KeepsStream (s.chan c).ds (t.chan c).ds ∧
        t.board.fault = (s.board.fault || !(r = .clean || r = .repaired)) ∧
        Around c s t)

/-! ### Request ports -/

/-- Lines 1 to 4 of R139's table (R135 to R140): the arrival is dropped, flagged and counted; the count falls if it was
above 0, and returns in OPEN for a parity error or an invalid kind alone (the GRANT that takes it: log entries 5 and
23). While reset is asserted an arrival is not taken at all (R139; log entry 19). -/
def Obligations.ArrivalDiscarded : Prop :=
  ∀ (s : State) (p : Chan) (header : Vector Byte 5) (data : List Block) (begun : Bool),
    let q := (s.chan p).port
    let begun' := q.headBegun || (begun && !q.outbound.isEmpty)
    let takes := s.seqState p = .opened ∨ s.seqState p = .draining
    (s.inReset = true → exec (.requestArrival p header data begun) s = .next s) ∧
    (s.inReset = false → ¬takes ∨ q.credit = 0 ∨ s.seqState p = .draining ∧ parseMessage header data = none →
      ∃ t, exec (.requestArrival p header data begun) s = .next t ∧ OnlyChannel p s t ∧
        t.chan p = { s.chan p with
          port := { q with credit := q.credit - 1, rejected := true, rejectedCount := min (q.rejectedCount + 1) 65535,
                           headBegun := begun' } }) ∧
    (s.inReset = false → s.seqState p = .opened → 0 < q.credit → parseMessage header data = none →
      ∃ t, exec (.requestArrival p header data begun) s = .next t ∧ OnlyChannel p s t ∧
        t.chan p = { s.chan p with
          port := { q with rejected := true, rejectedCount := min (q.rejectedCount + 1) 65535, headBegun := begun',
                           outbound := creditReturned begun' q.outbound } })

/-- The request header as it is received (R135, R159, section 11.3): five bytes, the first received being bits 7 to 0. A
message is sound exactly when its header bits hold an odd number of ones, its kind is 0 with no data block or 1 with length
code + 1 of them; its request is then as section 11.3 lays it out. A header built by that layout is read back field by
field. -/
def Obligations.RequestHeaderRoundTrip : Prop :=
  (∀ (b : Vector Byte 5) (data : List Block),
    let v := b[0].toNat + 256 * b[1].toNat + 256 ^ 2 * b[2].toNat + 256 ^ 3 * b[3].toNat + 256 ^ 4 * b[4].toNat
    let ones := ((List.range 40).filter fun i => v.testBit i).length
    let kind := v % 16
    let lenCode := v / 512 % 4
    (ones % 2 = 1 ∧ (kind = 0 ∧ data.length = 0 ∨ kind = 1 ∧ data.length = lenCode + 1) →
      parseMessage b data = some { isWrite := decide (kind = 1), tag := v / 16 % 32, lenCode := lenCode,
                                   addr := v / 2048 % 2 ^ 28, data := data }) ∧
    (¬(ones % 2 = 1 ∧ (kind = 0 ∧ data.length = 0 ∨ kind = 1 ∧ data.length = lenCode + 1)) →
      parseMessage b data = none)) ∧
  ∀ (isWrite : Bool) (tag lenCode addr : Nat) (data : List Block), tag < 32 → lenCode < 4 → addr < 2 ^ 28 →
    data.length = (if isWrite then lenCode + 1 else 0) →
    ∃ parity < 2,
      let v := (if isWrite then 1 else 0) + 16 * tag + 512 * lenCode + 2048 * addr + 2 ^ 39 * parity
      parseMessage (Vector.ofFn fun i : Fin 5 => BitVec.ofNat 8 (v / 256 ^ i.val)) data =
        some { isWrite := isWrite, tag := tag, lenCode := lenCode, addr := addr, data := data }

/-- Line 5 of R139's table, behind a request that waits (R137, R139, R141, R147): the request joins the tail, the count falls
by 1, and the detector considers a write if it runs. The fifth write of an escape is in EscapeTaken. -/
def Obligations.ArrivalAccepted : Prop :=
  ∀ (s : State) (p : Chan) (header : Vector Byte 5) (data : List Block) (begun : Bool) (r : Request), s.inReset = false →
    let q := (s.chan p).port
    let runs := s.seqState p = .opened ∧ strapEscapes s.strap = true ∧ r.isWrite = true
    s.seqState p = .opened ∨ s.seqState p = .draining → 0 < q.credit → parseMessage header data = some r → q.headWaits →
    (runs → (q.detector.see ((s.chan p).isCandidate r) (escapeWord r)).2 = none) →
    ∃ t, exec (.requestArrival p header data begun) s = .next t ∧ OnlyChannel p s t ∧
      t.chan p = { s.chan p with
        port := { q with
          credit := q.credit - 1, queue := q.queue ++ [r],
          headBegun := q.headBegun || (begun && !q.outbound.isEmpty),
          detector := if runs then (q.detector.see ((s.chan p).isCandidate r) (escapeWord r)).1 else q.detector } }

/-- A read that meets an empty queue is served at once (R11, R12, R15, R16, R84, R86, R142 to R145): each DIRECT or SPARE
block becomes one block read, in ascending order; a SHADOW block takes its buffer's bytes, a report block handed to the store
before it having entered first; an OUTSIDE block is 64 zero bytes, reaches no memory and sets the range flag. With nothing at
memory the response is formed in the same step. That all its blocks are handed over in this step, and when a SHADOW report
block is served, are the model's readings (log entries 15 and 21). -/
def Obligations.ReadServed : Prop :=
  (∀ (m : List Host.Cell) (e col i : Nat), i < 64 →
    (shadowReadBlock m e col).extractLsb' (8 * i) 8 = shadowRead m (e * 16384 + col * 64 + i)) ∧
  ∀ (s : State) (p : Chan) (header : Vector Byte 5) (begun : Bool) (r : Request), s.inReset = false →
    let q := (s.chan p).port
    s.seqState p = .opened ∨ s.seqState p = .draining → 0 < q.credit → parseMessage header [] = some r →
    q.queue = [] → q.service = none →
    ∃ t, exec (.requestArrival p header [] begun) s = .next t ∧
      ServiceBegun (s.updPort p fun q => { q with
        credit := q.credit - 1, queue := [r], headBegun := q.headBegun || (begun && !q.outbound.isEmpty) }) t p r

/-- A write of one to four blocks that meets an empty queue in OPEN (R11, R12, R14 to R16, R85, R86, R138, R147): its DIRECT
and SPARE blocks are handed to memory in ascending order, and the write waits for them; each SHADOW block replaces the 64
bytes of its buffer; each OUTSIDE block is discarded with the range flag set. With no block at memory it leaves in the same
step with its credit returned (the GRANT that takes it: log entries 5 and 23). That all its blocks are handed over in the step in
which its service begins is the model's reading (log entry 15). A report block of the channel that the
Shadow Row Store holds enters its buffer first (R86; log entry 21). -/
def Obligations.SingleBlockWrite : Prop :=
  (∀ (m : List Host.Cell) (e col : Nat) (data : Block),
    (∀ i < 64, shadowRead (shadowWriteBlock m e col data) (e * 16384 + col * 64 + i) = data.extractLsb' (8 * i) 8) ∧
    ∀ a, ¬(e * 16384 + col * 64 ≤ a ∧ a < e * 16384 + col * 64 + 64) →
      shadowRead (shadowWriteBlock m e col data) a = shadowRead m a) ∧
  (∀ (s : State) (p : Chan),
    (∀ w e col, s.writer.write = some w → w.chan = p → w.blockAt = .store e col →
      s.storeReport p = { s with
        shadow := { s.shadow with store := shadowWriteBlock s.shadow.store e col w.data },
        writer := { s.writer with write := some { w with blockAt := .settled } } }) ∧
    ((∀ w e col, s.writer.write = some w → w.chan = p → w.blockAt ≠ .store e col) → s.storeReport p = s)) ∧
  ∀ (s : State) (p : Chan) (header : Vector Byte 5) (data : List Block) (begun : Bool) (r : Request), s.inReset = false →
    let ch := s.chan p
    let q := ch.port
    let runs := strapEscapes s.strap = true
    let seen := q.detector.see (ch.isCandidate r) (escapeWord r)
    s.seqState p = .opened → 0 < q.credit → parseMessage header data = some r → r.isWrite = true →
    q.queue = [] → q.service = none → (runs → seen.2 = none) →
    (∀ w, s.writer.write = some w → w.chan = p → w.blockAt ≠ .waiting) →
    let s' := s.updPort p fun q => { q with
      credit := q.credit - 1, queue := [r], headBegun := q.headBegun || (begun && !q.outbound.isEmpty),
      detector := if runs then seen.1 else q.detector }
    ∃ t, exec (.requestArrival p header data begun) s = .next t ∧
      (requestOps ch r ≠ [] → ServiceBegun s' t p r) ∧
      (requestOps ch r = [] → ∃ u, ServiceBegun s' u p r ∧ t = leaves u p ∧
        (t.chan p).port.queue = [] ∧ (t.chan p).port.credit = q.credit) ∧
      (r.lenCode = 0 → ∀ e col, ch.dest r.addr = .shadow e col →
        t.shadow.holders = s.shadow.holders ∧ t.shadow.cap = s.shadow.cap ∧
        (∀ i < 64, shadowRead t.shadow.store (e * 16384 + col * 64 + i) = (r.block 0).extractLsb' (8 * i) 8) ∧
        ∀ a, ¬(e * 16384 + col * 64 ≤ a ∧ a < e * 16384 + col * 64 + 64) →
          shadowRead t.shadow.store a = shadowRead (s.storeReport p).shadow.store a)

/-- PORT_BLOCK_COMPLETE (R16, R17, R138, R142 to R145): the completed block fills the first open slot of the request in
service; a read with no open slot left has its response formed; a write with none left leaves, with its credit returned in
OPEN (the GRANT that takes it: log entries 5 and 23). A held SHADOW report block is served before a later access, and where a
drain ends a waiting one is translated first (log entry 21). A report block that waits is then translated, and after it the next
request's service begins, all its blocks handed over in this step (log entry 15), or an empty queue ends the drain. -/
def Obligations.PortBlockCompletes : Prop :=
  ∀ (s : State) (p : Chan) (data : Block) (begun : Bool) (op : DsOp) (rest : List DsOp) (r : Request)
    (more : List Request) (v : Service) (filled left : List (Option Block)),
    let ch := s.chan p
    let q := ch.port
    let begun' := q.headBegun || (begun && !q.outbound.isEmpty)
    s.seqState p = .opened ∨ s.seqState p = .draining →
    ch.ds.ops = op :: rest → op.owner = .port → q.queue = r :: more → q.service = some v → v.formed = false →
    v.slots = filled ++ none :: left → none ∉ filled →
    let slots := filled ++ some (op.write.getD data) :: left
    let ds' := { ch.ds with ops := rest, written := landAll [op] ch.ds.written }
    ∃ t, exec (.portBlockComplete p data begun) s = .next t ∧
      (none ∈ left → OnlyChannel p s t ∧
        t.chan p = { ch with ds := ds', port := { q with headBegun := begun', service := some { v with slots := slots } } }) ∧
      (none ∉ left → r.isWrite = false → OnlyChannel p s t ∧
        t.chan p = { ch with
          ds := ds',
          port := { q with
            headBegun := begun', service := some { v with slots := slots, formed := true }, rejected := false,
            range := false,
            outbound := q.outbound ++
              [.response r.tag r.lenCode
                { phase := if s.seqState p = .opened then 1 else 2, rejected := q.rejected,
                  range := v.outside || q.range, remapped := v.remapped, shadow := v.shadow, error := false }
                (slots.map fun o => o.getD 0)] } }) ∧
      (none ∉ left → r.isWrite = true →
        let s' := s.updChan p fun ch => { ch with
          ds := ds', port := { ch.port with headBegun := begun', service := some { v with slots := slots } } }
        ∃ u, ReportFirst (leaves s' p) u p ∧ Serves u t p) ∧
      (none ∉ left → r.isWrite = true → more = [] → s.seqState p = .opened →
        (∀ w, s.writer.write = some w → w.chan = p → w.blockAt ≠ .waiting) → OnlyChannel p s t ∧
        t.chan p = { ch with
          ds := ds',
          port := { q with
            headBegun := begun', service := none, queue := [], credit := q.credit + 1,
            outbound := creditReturned begun' q.outbound } })

/-- MESSAGE_SENT (R17, R136, R138, R142, R146): the head leaves the outbound list. The response of a read ends its stay in the
queue: in OPEN its credit returns (a GRANT that the sending brings to the head absorbs it: log entries 5 and 23), a report
block that waits is translated, and after it the next request's service begins, or an empty queue ends the drain; in CLOSING
no credit returns, and what follows in the queue is answered or dropped up to the next read, or the channel enters FAILED
(log entry 8). Where a drain ends, a waiting report block is translated first (log entry 21). The next request's blocks are
all handed over in this step (log entry 15). -/
def Obligations.MessageSentLeaves : Prop :=
  (∀ m : Message, m.isResponse = true ↔ ∃ tag lenCode st data, m = .response tag lenCode st data) ∧
  (∀ q : Port, q.responseFormed = true ↔ ∃ v, q.service = some v ∧ v.formed = true) ∧
  ∀ (s : State) (p : Chan) (m : Message) (rest : List Message), (s.chan p).port.outbound = m :: rest →
    let q := (s.chan p).port
    (m.isResponse = false →
      ∃ t, exec (.messageSent p) s = .next t ∧ OnlyChannel p s t ∧
        t.chan p = { s.chan p with port := { q with outbound := rest, headBegun := false } }) ∧
    ∀ r more, m.isResponse = true → q.responseFormed = true → q.queue = r :: more →
      (s.seqState p = .opened ∨ s.seqState p = .draining →
        ∃ t, exec (.messageSent p) s = .next t ∧
          ∃ u, ReportFirst (leaves (s.updPort p fun q => { q with outbound := rest, headBegun := false }) p) u p ∧
            Serves u t p) ∧
      (s.seqState p = .opened → more = [] →
        (∀ w, s.writer.write = some w → w.chan = p → w.blockAt ≠ .waiting) →
        ∃ t, exec (.messageSent p) s = .next t ∧ OnlyChannel p s t ∧
          t.chan p = { s.chan p with
            port := { q with outbound := creditReturned false rest, headBegun := false, queue := [], service := none,
                             credit := q.credit + 1 } }) ∧
      (s.seqState p = .closing →
        let left := more.dropWhile Request.isWrite
        ∃ t, exec (.messageSent p) s = .next t ∧ Around p s t ∧ t.board.fault = s.board.fault ∧
          (t.chan p).seq = { (s.chan p).seq with state := if left = [] then .failed else .closing } ∧
          KeepsRepairs (s.chan p) (t.chan p) ∧
          (left = [] → (t.chan p).port = { q with outbound := rest, headBegun := false, queue := [], service := none }) ∧
          ∀ next, left.head? = some next →
            (t.chan p).port = { q with
              outbound := rest ++ [closingResponse q next], headBegun := false, queue := left,
              service := (t.chan p).port.service, rejected := false, range := false } ∧
            (t.chan p).port.responseFormed = true)

/-- The drain ends, and the retest begins in the same step, when the last request has left the queue: a read whose response
has been sent, or a write whose last block has completed (R17, R81, R86, R107, R108, R116, R138, R146, R156). A report write
on the channel is abandoned, and its start set opens; a block of it that waits is translated first, and one that the Shadow
Row Store has not served is discarded, the freeing being taken first in that one step (the model's choice, log entry 21). The
pending flags, the rejected counter and the outbound list stand (R140, R146). -/
def Obligations.RetestBegins : Prop :=
  ∀ (s : State) (c : Chan) (r : Request), s.seqState c = .draining → (s.chan c).port.queue = [r] →
    (∀ m rest, (s.chan c).port.outbound = m :: rest → m.isResponse = true → (s.chan c).port.responseFormed = true →
      ∃ t, exec (.messageSent c) s = .next t ∧ (t.chan c).port.outbound = rest ∧
        ∃ u, ReportFirst (leaves (s.updPort c fun q => { q with outbound := rest, headBegun := false }) c) u c ∧
          RetestBegun u t c) ∧
    ∀ data stored begun op ops v, r.isWrite = true → (s.chan c).ds.ops = op :: ops → op.owner = .port →
      op.write = some stored →
      (s.chan c).port.service = some v → v.slots = [none] →
      ∃ t, exec (.portBlockComplete c data begun) s = .next t ∧ (t.chan c).port.outbound = (s.chan c).port.outbound ∧
        ∃ u, ReportFirst (leaves (s.updChan c fun ch => { ch with
            ds := { ch.ds with ops := ops, written := dramLand op stored ch.ds.written },
            port := { ch.port with headBegun := ch.port.headBegun || (begun && !ch.port.outbound.isEmpty) } }) c) u c ∧
          RetestBegun u t c

/-- The escape detector's table (R147): `k` is the step of the state, 0 in IDLE; a word is a step word when bytes 2 to 7 are
0xFF, byte 1 is 0 and byte 0 is the number. A candidate is one block at the channel's escape block, and its word the first 8
bytes of its data. -/
def Obligations.DetectorTable : Prop :=
  (∀ (ch : Channel) (r : Request), ch.isCandidate r = true ↔ r.lenCode = 0 ∧ ch.escapeBlock = some r.addr) ∧
  (∀ r : Request, ∀ i < 64, (escapeWord r).getLsbD i = (r.block 0).getLsbD i) ∧
  (∀ w : BitVec 64, escapeMarked w = true ↔ ∀ i, 16 ≤ i → i < 64 → w.getLsbD i = true) ∧
  ∀ (d : Detector) (candidate : Bool) (w : BitVec 64),
    let stepOf : Detector → Nat := fun x => match x with
      | .idle => 0
      | .step1 => 1
      | .step2 => 2
      | .step3 => 3
      | .step4 => 4
    let marked : Prop := ∀ i, 16 ≤ i → i < 64 → w.getLsbD i = true
    let stepWord (k : Nat) : Prop := marked ∧ w.toNat % 65536 = k
    (d = .step4 → candidate = true → marked → d.see candidate w = (.idle, some w)) ∧
    (¬(d = .step4 ∧ candidate = true ∧ marked) → (d.see candidate w).2 = none ∧
      (1 ≤ stepOf d → stepOf d < 4 → candidate = true → stepWord (stepOf d + 1) →
        stepOf (d.see candidate w).1 = stepOf d + 1) ∧
      (¬(1 ≤ stepOf d ∧ stepOf d < 4 ∧ candidate = true ∧ stepWord (stepOf d + 1)) →
        (candidate = true → stepWord 1 → (d.see candidate w).1 = .step1) ∧
        (candidate = false ∨ ¬stepWord 1 → (d.see candidate w).1 = .idle)))

/-- The fifth write hands over its escape, and is itself queued like any write (R107, R137, R142, R147, R148, R152, R158):
fault acknowledge, a retest of another OPEN channel or of its own, a publish that an IDLE writer starts or a WRITING one
notes, or an escape that is ignored. Behind a request that waits, the write waits too; meeting an empty queue, it is served
once its escape has been taken, and where it leaves at once in a drain of its own channel, the retest begins. The service is
the model's in these points: its blocks are all handed over in this step, after the escape (log entry 15); the GRANT that takes
its credit (log entries 5 and 23); a SHADOW report block is served before a later access, and where the drain ends a waiting
one is translated first, a SHADOW one not served being discarded (log entry 21). -/
def Obligations.EscapeTaken : Prop :=
  ∀ (s : State) (p : Chan) (header : Vector Byte 5) (data : List Block) (begun : Bool) (r : Request), s.inReset = false →
    let q := (s.chan p).port
    let w := escapeWord r
    let code := w.toNat % 256
    let operand := w.toNat / 256 % 256
    s.seqState p = .opened → strapEscapes s.strap = true → 0 < q.credit → parseMessage header data = some r →
    r.isWrite = true → r.lenCode = 0 → (s.chan p).escapeBlock = some r.addr → q.detector = .step4 →
    escapeMarked w = true →
    let s' := s.updPort p fun q => { q with
      credit := q.credit - 1, queue := q.queue ++ [r], detector := .idle,
      headBegun := q.headBegun || (begun && !q.outbound.isEmpty) }
    ∃ t, exec (.requestArrival p header data begun) s = .next t ∧
      (q.headWaits → EscapeEffect s' t p code operand) ∧
      (q.queue = [] → q.service = none → ∃ u, EscapeEffect s' u p code operand ∧ Serves u t p)

/-! ### The report and the board lines -/

/-- A publish escape that finds the writer IDLE starts a write, and so does a change of state after which no channel is testing
and one is DONE (R17, R148, R152 to R154; log entry 18): placed on the report channel, or else on the lowest channel that is
DONE or OPEN, at the report offset if the area fits; it carries the report as it stands, the channels then DONE form its
start set, and its first block waits behind the port's requests or is translated at once. With no placement possible a publish
is spent; with no start due, or with strap bit 5 at 0, an IDLE writer stays IDLE. After it READY becomes active if every
channel is then OPEN, FAILED or ABSENT (R157). That a SHADOW first block is handed to the Shadow Row Store in this step and
written later is the model's choice (log entry 21). -/
def Obligations.PublishStartsWrite : Prop :=
  (∀ s : State, let settled : Prop := ∀ c, s.seqState c ∈ [SeqState.opened, .failed, .absent]
    (settled → s.raiseReady = { s with board := { s.board with ready := true, readyRaised := true } }) ∧
    (¬settled → s.raiseReady = s)) ∧
  (∀ (s : State) (c : Chan), strapPublish s.strap = true → s.writer.write = none →
    (Placed s c → WriteStarted s s.publish c) ∧
    ((∀ d, ¬Placed s d) → s.publish = { s with writer := { s.writer with pendingPublish := false } })) ∧
  ∀ s : State, s.writer.write = none →
    let due := (∀ d, s.seqState d ∉ testingStates) ∧ ∃ d, s.seqState d = .done
    (strapPublish s.strap = true → due ∨ s.writer.pendingPublish = true → ∀ c, Placed s c →
      ∃ u, WriteStarted s u c ∧ s.settle = u.raiseReady) ∧
    (strapPublish s.strap = true → s.writer.pendingPublish = true → (∀ c, ¬Placed s c) →
      s.settle = { s with writer := { s.writer with pendingPublish := false } }.raiseReady) ∧
    (strapPublish s.strap = false ∨ ¬due ∧ s.writer.pendingPublish = false → s.settle = s.raiseReady)

/-- A report block has completed, at memory, at the Shadow Row Store, which then holds its 64 bytes, or by its discard, and is
not the last: the next one is handed over, between two requests and translated like a write of length 1 (R17, R85, R86,
R155). The Shadow Row Store serves a block at its completion: the moment is the model's choice (log entry 21). The operation
of an abandoned write completes at memory and hands over nothing (R108, R156), also where the channel has since become FAILED
or ABSENT: there it is the model's choice (log entries 26 and 27). -/
def Obligations.ReportBlockCarried : Prop :=
  (∀ (w : Write) (block : Block), w.blocks[w.index]? = some block → w.data = block) ∧
  (∀ op : DsOp, (op.isReport = true ↔ ∃ live, op.owner = .report live) ∧
    op.discardReport = if op.isReport = true then { op with owner := .report false } else op) ∧
  (∀ (s : State) (c : Chan) (w : Write) (ops : List DsOp) (written : List Host.Cell) (shadow : Shadow),
    s.writer.write = some w → w.chan = c → BlockDone s w ops written shadow → w.index + 1 < w.blocks.length →
    let s' := { s.updDs c fun d => { d with ops := ops, written := written } with shadow := shadow }
    let next : Write := { w with index := w.index + 1, blockAt := .waiting }
    ∃ t, exec (.reportBlockComplete c) s = .next t ∧
      ((s.chan c).port.queue ≠ [] → t = { s' with writer := { s.writer with write := some next } }) ∧
      ((s.chan c).port.queue = [] → BlockCarried s' t next)) ∧
  ∀ (s : State) (c : Chan) (op : DsOp) (rest : List DsOp),
    (s.chan c).ds.ops = op :: rest → op.owner = .report false →
    (∀ w, s.writer.write = some w → w.chan = c → w.blockAt = .waiting ∨ w.blockAt = .memory) →
    ∃ t, exec (.reportBlockComplete c) s = .next t ∧ OnlyChannel c s t ∧
      t.chan c = { s.chan c with
        ds := { (s.chan c).ds with ops := rest, written := landAll [op] (s.chan c).ds.written } }

/-- The end of a report write (R99, R137, R155 to R157). By the completion of its last block: every channel of the start set
that is still DONE becomes OPEN with credit count 16 and RESTORE 16, in one step, and READY becomes active if every channel
is then settled; the writer is IDLE unless it starts again at once. Equally by abandonment, when its channel is lost from
DONE, OPEN or DRAINING, or when its retest begins. That a block at the Shadow Row Store is served at its completion is the
model's choice (log entry 21). -/
def Obligations.ReportWriteEnds : Prop :=
  (∀ (s : State) (c : Chan) (w : Write), s.writer.write = some w → w.chan = c → w.blocks.length ≤ w.index + 1 →
    ∀ ops written shadow, BlockDone s w ops written shadow →
    ∃ t, exec (.reportBlockComplete c) s = .next t ∧
      (∀ d, d ∈ w.startSet → s.seqState d = .done →
        (t.chan d).seq = { (s.chan d).seq with state := .opened } ∧
        (t.chan d).port = { (s.chan d).port with credit := 16, outbound := (s.chan d).port.outbound ++ [.restore 16] }) ∧
      (∀ d, ¬(d ∈ w.startSet ∧ s.seqState d = .done) →
        (t.chan d).seq = (s.chan d).seq ∧ (t.chan d).port = (s.chan d).port) ∧
      (∀ d, KeepsRepairs (s.chan d) (t.chan d)) ∧ KeepsShared { s with shadow := shadow } t ∧
      (t.chan c).ds.written = written ∧ t.arbiter = s.arbiter ∧
      t.board.fault = s.board.fault ∧ (t.allSettled = true → t.board.ready = true) ∧
      (s.writer.pendingPublish = false → (∀ d, s.seqState d = .done → d ∈ w.startSet) → t.writer.write = none)) ∧
  ∀ (s : State) (c : Chan), s.seqState c ∈ [SeqState.done, .opened, .draining] →
    ((s.chan c).supplyGood = true → ∃ t, exec (.supplyGoodFall c) s = .next t ∧ WriteAbandoned s t c) ∧
    ((∃ op ∈ (s.chan c).ds.ops, op.write = none) → ∃ t, exec (.noResponse c) s = .next t ∧ WriteAbandoned s t c) ∧
    ∀ r m rest, s.seqState c = .draining → (s.chan c).port.queue = [r] → (s.chan c).port.outbound = m :: rest →
      m.isResponse = true → (s.chan c).port.responseFormed = true →
      ∃ t, exec (.messageSent c) s = .next t ∧ WriteAbandoned s t c

/-- The outbound layouts (R154, R160, sections 11.3 and 11.5): the fields of the report's header record, of each channel
record and of each repair list entry, the bytes of each record summing to 0 modulo 256; the records one behind the other,
byte i in block i / 64 at byte i mod 64, and the last block filled up with zeros. And the bytes of each message to the
controller, with a response's status byte (a GRANT above 16: log entry 23). -/
def Obligations.ReportBytes : Prop :=
  (∀ s : State,
    HeaderLayout s s.headerRecord ∧ (∀ c, ChannelLayout s c (s.channelRecord c)) ∧
    s.reportBytes = s.headerRecord ++ s.channelRecord 0 ++ s.channelRecord 1 ++ s.channelRecord 2 ++ s.channelRecord 3 ∧
    s.reportBlocks.length = (s.reportBytes.length + 63) / 64 ∧
    (∀ i b, s.reportBlocks[i / 64]? = some b → b.extractLsb' (8 * (i % 64)) 8 = s.reportBytes.getD i 0) ∧
    (LogLaw s → 160 ≤ s.reportBytes.length ∧ s.reportBytes.length ≤ 4256)) ∧
  ∀ m : Message, MessageLayout m m.bytes

/-! ### Geometry -/

/-- The codes of an identity, any other code in any field making the whole value undecodable, and what the width fixes
(chapter 1, R1 to R3). And R5 for every geometry that an identity can give: row bytes = columns × word bytes, blocks per row = row bytes / 64,
exactly, and also columns / columns per block; the values they take, the smallest case, the largest, and that the largest
row is exactly a shadow buffer. -/
def Obligations.RowBytes : Prop :=
  (∀ (v : BitVec 16) (w : Width),
    let bankCode := v.toNat / 4096
    let rowCode := v.toNat / 256 % 16
    let columnCode := v.toNat / 16 % 16
    let spareCode := v.toNat % 16
    (∀ banks rows columns, [4, 8, 16][bankCode]? = some banks → [8192, 16384, 32768, 65536][rowCode]? = some rows →
      [512, 1024, 2048][columnCode]? = some columns → spareCode ≤ 8 →
      decodeIdentity v w = some { banks := banks, rows := rows, columns := columns, spares := 4 * spareCode, width := w }) ∧
    (2 < bankCode ∨ 3 < rowCode ∨ 2 < columnCode ∨ 8 < spareCode → decodeIdentity v w = none)) ∧
  (Width.full.lanes = 64 ∧ Width.full.wordBytes = 8 ∧ Width.full.columnsPerBlock = 8 ∧
    Width.half.lanes = 32 ∧ Width.half.wordBytes = 4 ∧ Width.half.columnsPerBlock = 16) ∧
  ∀ (v : BitVec 16) (w : Width) (g : Geometry), decodeIdentity v w = some g →
    g.rowBytes = g.columns * w.wordBytes ∧ g.blocksPerRow = g.rowBytes / 64 ∧ g.blocksPerRow * 64 = g.rowBytes ∧
    g.columns ∈ [512, 1024, 2048] ∧ w.wordBytes ∈ [4, 8] ∧
    g.rowBytes ∈ [2048, 4096, 8192, 16384] ∧ g.blocksPerRow ∈ [32, 64, 128, 256] ∧
    g.blocksPerRow = g.columns / w.columnsPerBlock ∧
    (g.columns = 512 → w = .half → g.rowBytes = 2048 ∧ g.blocksPerRow = 32) ∧
    (g.columns = 2048 → w = .full → g.rowBytes = 16384 ∧ g.blocksPerRow = 256 ∧ g.rowBytes = Config.bufferBytes) ∧
    g.rowBytes ≤ Config.bufferBytes

/-- R9, with the decomposition of R8: the range test on the exact integer address is the row test; the row beyond the last
visible row is out of range and is bank spare 0; an address of 2^28 or above is out of range. And where a block in range goes,
with the quantities of R6 and R7 (R11, R13 to R15, R74, R76): with no entry for its bank and row to that row; by the one entry
for them (R73) to bank spare k at physical row rows − spares + k of the same bank, or to shadow entry e; always at its own
block column. A channel without a geometry has no visible block and no escape block (R4). -/
def Obligations.RangeTest : Prop :=
  (∀ (g : Geometry) (t : List RemapEntry) (a : Nat), a < g.visibleBlocks →
    ((∀ e ∈ t, ¬(e.bank = g.bankOf a ∧ e.row = g.rowOf a)) → g.dest t a = .direct (g.bankOf a) (g.rowOf a) (g.blockCol a)) ∧
    ∀ e ∈ t, e.bank = g.bankOf a → e.row = g.rowOf a →
      (∀ x ∈ t, x.bank = g.bankOf a → x.row = g.rowOf a → x = e) →
      (∀ k, e.target = .spare k → g.dest t a = .spare (g.bankOf a) (g.rows - g.spares + k) (g.blockCol a)) ∧
      ∀ n, e.target = .shadow n → g.dest t a = .shadow n (g.blockCol a)) ∧
  (∀ g : Geometry, g.visibleRows = g.rows - g.spares ∧ g.visibleBlocks = g.banks * g.visibleRows * g.blocksPerRow ∧
    g.escapeBlock = g.visibleBlocks - 1) ∧
  (∀ ch : Channel,
    (∀ g, ch.geometry = some g → ch.visibleBlocks = g.visibleBlocks ∧ ch.escapeBlock = some g.escapeBlock ∧
      ch.layout = g.width ∧ ch.spares = g.spares ∧ ∀ a, ch.dest a = g.dest ch.remap a) ∧
    (ch.geometry = none → ch.visibleBlocks = 0 ∧ ch.escapeBlock = none ∧ ∀ a, ch.dest a = .outside)) ∧
  ∀ (v : BitVec 16) (w : Width) (g : Geometry) (t : List RemapEntry) (a : Nat), decodeIdentity v w = some g →
    (g.dest t a = .outside ↔ ¬a < g.visibleBlocks) ∧ (a < g.visibleBlocks ↔ g.rowOf a < g.visibleRows) ∧
    (g.rowOf a = g.visibleRows → g.dest t a = .outside ∧ (0 < g.spares → g.rowOf a = g.spareRow 0 ∧ g.rowOf a < g.rows)) ∧
    (2 ^ 28 ≤ a → g.dest t a = .outside) ∧
    a = (g.rowOf a * g.banks + g.bankOf a) * g.blocksPerRow + g.blockCol a ∧ g.bankOf a < g.banks ∧
    g.blockCol a < g.blocksPerRow

/-! ### Laws that every step keeps -/

/-- The work of a channel's blocks belongs to its sequencer's state, and the arbiter keeps R110's law; both hold again after
every step, from any state in which they hold. -/
def Obligations.SequencerAndArbiterLawsKept : Prop :=
  ∀ s t : State, SequencerLaw s → ArbiterLaw s → step s = .next t → SequencerLaw t ∧ ArbiterLaw t

/-- R37's and R38's laws of the Fail Log hold again after every step. -/
def Obligations.FailLogLawsKept : Prop :=
  ∀ s t : State, SequencerLaw s → LogLaw s → VisibleLaw s → step s = .next t → LogLaw t ∧ VisibleLaw t

/-- R72's and R73's laws of the Remap Table hold again after every step. -/
def Obligations.RemapTableLawsKept : Prop :=
  ∀ s t : State, SequencerLaw s → LogLaw s → RepairLaw s → SpareLaw s → step s = .next t → RepairLaw t ∧ SpareLaw t

/-- R77's law of the Shadow Allocator holds again after every step: each place records the channel that names the entry, so
that free and named entries number 32; and the store keeps its canonical form. With R78, no channel names more
shadow entries than its cap. -/
def Obligations.ShadowPoolLawsKept : Prop :=
  (∀ s t : State, ShadowLaw s → Memory.wf s.shadow.store → step s = .next t →
    ShadowLaw t ∧ Memory.wf t.shadow.store) ∧
  (∀ s : State, ShadowLaw s →
    (s.shadow.holders.toList.filter fun h => h = none).length + (allChans.map fun c => heldEntries (s.chan c).remap).sum = 32) ∧
  ∀ s t : State, SequencerLaw s → CapLaw s → step s = .next t → CapLaw t

/-- R137's law of credits and R141's of the queue hold again after every step. -/
def Obligations.CreditLawKept : Prop :=
  ∀ s t : State, SequencerLaw s → CreditLaw s → step s = .next t → CreditLaw t

/-- The escape detectors (R147), refresh withholding (R26), a report write's channel (R156) and start (R152: no IDLE writer
leaves a publish pending, nor a DONE channel waiting once none is testing) and READY (R157) keep their laws at every step; and
READY, once active, stays active until reset assertion, and becomes active only when every channel is OPEN, FAILED or ABSENT. -/
def Obligations.PortRefreshAndReadyLawsKept : Prop :=
  (∀ s : State, s.allSettled = true ↔ ∀ c, s.seqState c ∈ [SeqState.opened, .failed, .absent]) ∧
  (∀ x : SeqState, x.carriesReport = true ↔ x ∈ [SeqState.done, .opened, .draining]) ∧
  (∀ op : DsOp, op.isLiveSweep = true ↔ ∃ how, op.owner = .sweep true how) ∧
  ∀ s t : State, SequencerLaw s → DetectorLaw s → RefreshLaw s → WriterLaw s → StartLaw s → ReadyLaw s → step s = .next t →
    DetectorLaw t ∧ RefreshLaw t ∧ WriterLaw t ∧ StartLaw t ∧ ReadyLaw t ∧
    (s.board.ready = true → s.pending.head? ≠ some .resetAssertion → t.board.ready = true) ∧
    (t.board.ready = true → s.board.ready = true ∨ t.allSettled = true)

/-- A FAILED channel stays FAILED with its reason, and an ABSENT one ABSENT, until reset assertion; what the channel holds of
repairs stays with it (R91, R103, R106). -/
def Obligations.LostChannelStays : Prop :=
  ∀ (s t : State) (c : Chan), SequencerLaw s → s.seqState c = .failed ∨ s.seqState c = .absent →
    s.pending.head? ≠ some .resetAssertion → step s = .next t →
    t.seqState c = s.seqState c ∧ (t.chan c).seq.result = (s.chan c).seq.result ∧
    (t.chan c).seq.reason = (s.chan c).seq.reason ∧ KeepsRepairs (s.chan c) (t.chan c) ∧
    ∀ e : Fin 32, s.shadow.holders[e] = some c → t.shadow.holders[e] = some c

/-- Every law holds of the part right after reset assertion. -/
def Obligations.LawsHoldAtReset : Prop :=
  let s := State.reset
  SequencerLaw s ∧ ArbiterLaw s ∧ LogLaw s ∧ VisibleLaw s ∧ RepairLaw s ∧ SpareLaw s ∧ ShadowLaw s ∧
  Memory.wf s.shadow.store ∧ CapLaw s ∧ CreditLaw s ∧ DetectorLaw s ∧ RefreshLaw s ∧ WriterLaw s ∧ StartLaw s ∧ ReadyLaw s
end

