-- ==== Sys2Proof/Laws/State.lean ====
section
/-! SUPPORT. One lemma per field per update of the state, so that no later proof unfolds a record update. -/

namespace Sys2Proof.Machine

/-! ### updChan and what is built on it -/

@[simp] theorem chan_updChan_same (s : State) (c : Chan) (f : Channel → Channel) :
    (s.updChan c f).chan c = f (s.chan c) := by
  simp [State.updChan, State.chan]

theorem chan_updChan_ne (s : State) {c d : Chan} (f : Channel → Channel) (h : d ≠ c) :
    (s.updChan c f).chan d = s.chan d := by
  have : c.val ≠ d.val := fun e => h (Fin.ext e.symm)
  simp [State.updChan, State.chan, this]

theorem chan_updChan (s : State) (c d : Chan) (f : Channel → Channel) :
    (s.updChan c f).chan d = if d = c then f (s.chan c) else s.chan d := by
  split
  · subst_vars; simp
  · exact chan_updChan_ne s f ‹_›

@[simp] theorem inReset_updChan (s : State) (c : Chan) (f : Channel → Channel) : (s.updChan c f).inReset = s.inReset := rfl
@[simp] theorem strap_updChan (s : State) (c : Chan) (f : Channel → Channel) : (s.updChan c f).strap = s.strap := rfl
@[simp] theorem arbiter_updChan (s : State) (c : Chan) (f : Channel → Channel) : (s.updChan c f).arbiter = s.arbiter := rfl
@[simp] theorem shadow_updChan (s : State) (c : Chan) (f : Channel → Channel) : (s.updChan c f).shadow = s.shadow := rfl
@[simp] theorem loader_updChan (s : State) (c : Chan) (f : Channel → Channel) : (s.updChan c f).loader = s.loader := rfl
@[simp] theorem writer_updChan (s : State) (c : Chan) (f : Channel → Channel) : (s.updChan c f).writer = s.writer := rfl
@[simp] theorem board_updChan (s : State) (c : Chan) (f : Channel → Channel) : (s.updChan c f).board = s.board := rfl
@[simp] theorem pending_updChan (s : State) (c : Chan) (f : Channel → Channel) : (s.updChan c f).pending = s.pending := rfl

/-- Two states agree when their shared blocks and all their channels agree. -/
theorem state_ext {s t : State} (h1 : s.inReset = t.inReset) (h2 : s.strap = t.strap) (h3 : ∀ c, s.chan c = t.chan c)
    (h4 : s.arbiter = t.arbiter) (h5 : s.shadow = t.shadow) (h6 : s.loader = t.loader) (h7 : s.writer = t.writer)
    (h8 : s.board = t.board) (h9 : s.pending = t.pending) : s = t := by
  have h : s.chans = t.chans := Vector.ext fun i hi => h3 ⟨i, hi⟩
  cases s; cases t; simp_all

/-! ### updSeq -/

@[simp] theorem chan_updSeq_same (s : State) (c : Chan) (f : Sequencer → Sequencer) :
    (s.updSeq c f).chan c = { s.chan c with seq := f (s.chan c).seq } := by simp [State.updSeq]

theorem chan_updSeq_ne (s : State) {c d : Chan} (f : Sequencer → Sequencer) (h : d ≠ c) : (s.updSeq c f).chan d = s.chan d :=
  chan_updChan_ne s _ h

theorem chan_updSeq (s : State) (c d : Chan) (f : Sequencer → Sequencer) :
    (s.updSeq c f).chan d = if d = c then { s.chan c with seq := f (s.chan c).seq } else s.chan d := chan_updChan s c d _

@[simp] theorem supplyGood_updSeq (s : State) (c d : Chan) (f : Sequencer → Sequencer) : ((s.updSeq c f).chan d).supplyGood = (s.chan d).supplyGood := by
  rw [chan_updSeq]; split <;> simp_all
@[simp] theorem geometry_updSeq (s : State) (c d : Chan) (f : Sequencer → Sequencer) : ((s.updSeq c f).chan d).geometry = (s.chan d).geometry := by
  rw [chan_updSeq]; split <;> simp_all
@[simp] theorem remap_updSeq (s : State) (c d : Chan) (f : Sequencer → Sequencer) : ((s.updSeq c f).chan d).remap = (s.chan d).remap := by
  rw [chan_updSeq]; split <;> simp_all
@[simp] theorem log_updSeq (s : State) (c d : Chan) (f : Sequencer → Sequencer) : ((s.updSeq c f).chan d).log = (s.chan d).log := by
  rw [chan_updSeq]; split <;> simp_all
@[simp] theorem march_updSeq (s : State) (c d : Chan) (f : Sequencer → Sequencer) : ((s.updSeq c f).chan d).march = (s.chan d).march := by
  rw [chan_updSeq]; split <;> simp_all
@[simp] theorem analyser_updSeq (s : State) (c d : Chan) (f : Sequencer → Sequencer) : ((s.updSeq c f).chan d).analyser = (s.chan d).analyser := by
  rw [chan_updSeq]; split <;> simp_all
@[simp] theorem ds_updSeq (s : State) (c d : Chan) (f : Sequencer → Sequencer) : ((s.updSeq c f).chan d).ds = (s.chan d).ds := by
  rw [chan_updSeq]; split <;> simp_all
@[simp] theorem port_updSeq (s : State) (c d : Chan) (f : Sequencer → Sequencer) : ((s.updSeq c f).chan d).port = (s.chan d).port := by
  rw [chan_updSeq]; split <;> simp_all
@[simp] theorem inReset_updSeq (s : State) (c : Chan) (f : Sequencer → Sequencer) : (s.updSeq c f).inReset = s.inReset := rfl
@[simp] theorem strap_updSeq (s : State) (c : Chan) (f : Sequencer → Sequencer) : (s.updSeq c f).strap = s.strap := rfl
@[simp] theorem arbiter_updSeq (s : State) (c : Chan) (f : Sequencer → Sequencer) : (s.updSeq c f).arbiter = s.arbiter := rfl
@[simp] theorem shadow_updSeq (s : State) (c : Chan) (f : Sequencer → Sequencer) : (s.updSeq c f).shadow = s.shadow := rfl
@[simp] theorem loader_updSeq (s : State) (c : Chan) (f : Sequencer → Sequencer) : (s.updSeq c f).loader = s.loader := rfl
@[simp] theorem writer_updSeq (s : State) (c : Chan) (f : Sequencer → Sequencer) : (s.updSeq c f).writer = s.writer := rfl
@[simp] theorem board_updSeq (s : State) (c : Chan) (f : Sequencer → Sequencer) : (s.updSeq c f).board = s.board := rfl
@[simp] theorem pending_updSeq (s : State) (c : Chan) (f : Sequencer → Sequencer) : (s.updSeq c f).pending = s.pending := rfl

/-! ### updPort -/

@[simp] theorem chan_updPort_same (s : State) (c : Chan) (f : Port → Port) :
    (s.updPort c f).chan c = { s.chan c with port := f (s.chan c).port } := by simp [State.updPort]

theorem chan_updPort_ne (s : State) {c d : Chan} (f : Port → Port) (h : d ≠ c) : (s.updPort c f).chan d = s.chan d :=
  chan_updChan_ne s _ h

theorem chan_updPort (s : State) (c d : Chan) (f : Port → Port) :
    (s.updPort c f).chan d = if d = c then { s.chan c with port := f (s.chan c).port } else s.chan d := chan_updChan s c d _

@[simp] theorem supplyGood_updPort (s : State) (c d : Chan) (f : Port → Port) : ((s.updPort c f).chan d).supplyGood = (s.chan d).supplyGood := by
  rw [chan_updPort]; split <;> simp_all
@[simp] theorem seq_updPort (s : State) (c d : Chan) (f : Port → Port) : ((s.updPort c f).chan d).seq = (s.chan d).seq := by
  rw [chan_updPort]; split <;> simp_all
@[simp] theorem geometry_updPort (s : State) (c d : Chan) (f : Port → Port) : ((s.updPort c f).chan d).geometry = (s.chan d).geometry := by
  rw [chan_updPort]; split <;> simp_all
@[simp] theorem remap_updPort (s : State) (c d : Chan) (f : Port → Port) : ((s.updPort c f).chan d).remap = (s.chan d).remap := by
  rw [chan_updPort]; split <;> simp_all
@[simp] theorem log_updPort (s : State) (c d : Chan) (f : Port → Port) : ((s.updPort c f).chan d).log = (s.chan d).log := by
  rw [chan_updPort]; split <;> simp_all
@[simp] theorem march_updPort (s : State) (c d : Chan) (f : Port → Port) : ((s.updPort c f).chan d).march = (s.chan d).march := by
  rw [chan_updPort]; split <;> simp_all
@[simp] theorem analyser_updPort (s : State) (c d : Chan) (f : Port → Port) : ((s.updPort c f).chan d).analyser = (s.chan d).analyser := by
  rw [chan_updPort]; split <;> simp_all
@[simp] theorem ds_updPort (s : State) (c d : Chan) (f : Port → Port) : ((s.updPort c f).chan d).ds = (s.chan d).ds := by
  rw [chan_updPort]; split <;> simp_all
@[simp] theorem inReset_updPort (s : State) (c : Chan) (f : Port → Port) : (s.updPort c f).inReset = s.inReset := rfl
@[simp] theorem strap_updPort (s : State) (c : Chan) (f : Port → Port) : (s.updPort c f).strap = s.strap := rfl
@[simp] theorem arbiter_updPort (s : State) (c : Chan) (f : Port → Port) : (s.updPort c f).arbiter = s.arbiter := rfl
@[simp] theorem shadow_updPort (s : State) (c : Chan) (f : Port → Port) : (s.updPort c f).shadow = s.shadow := rfl
@[simp] theorem loader_updPort (s : State) (c : Chan) (f : Port → Port) : (s.updPort c f).loader = s.loader := rfl
@[simp] theorem writer_updPort (s : State) (c : Chan) (f : Port → Port) : (s.updPort c f).writer = s.writer := rfl
@[simp] theorem board_updPort (s : State) (c : Chan) (f : Port → Port) : (s.updPort c f).board = s.board := rfl
@[simp] theorem pending_updPort (s : State) (c : Chan) (f : Port → Port) : (s.updPort c f).pending = s.pending := rfl

/-! ### updDs -/

@[simp] theorem chan_updDs_same (s : State) (c : Chan) (f : Downstream → Downstream) :
    (s.updDs c f).chan c = { s.chan c with ds := f (s.chan c).ds } := by simp [State.updDs]

theorem chan_updDs_ne (s : State) {c d : Chan} (f : Downstream → Downstream) (h : d ≠ c) : (s.updDs c f).chan d = s.chan d :=
  chan_updChan_ne s _ h

theorem chan_updDs (s : State) (c d : Chan) (f : Downstream → Downstream) :
    (s.updDs c f).chan d = if d = c then { s.chan c with ds := f (s.chan c).ds } else s.chan d := chan_updChan s c d _

@[simp] theorem supplyGood_updDs (s : State) (c d : Chan) (f : Downstream → Downstream) : ((s.updDs c f).chan d).supplyGood = (s.chan d).supplyGood := by
  rw [chan_updDs]; split <;> simp_all
@[simp] theorem seq_updDs (s : State) (c d : Chan) (f : Downstream → Downstream) : ((s.updDs c f).chan d).seq = (s.chan d).seq := by
  rw [chan_updDs]; split <;> simp_all
@[simp] theorem geometry_updDs (s : State) (c d : Chan) (f : Downstream → Downstream) : ((s.updDs c f).chan d).geometry = (s.chan d).geometry := by
  rw [chan_updDs]; split <;> simp_all
@[simp] theorem remap_updDs (s : State) (c d : Chan) (f : Downstream → Downstream) : ((s.updDs c f).chan d).remap = (s.chan d).remap := by
  rw [chan_updDs]; split <;> simp_all
@[simp] theorem log_updDs (s : State) (c d : Chan) (f : Downstream → Downstream) : ((s.updDs c f).chan d).log = (s.chan d).log := by
  rw [chan_updDs]; split <;> simp_all
@[simp] theorem march_updDs (s : State) (c d : Chan) (f : Downstream → Downstream) : ((s.updDs c f).chan d).march = (s.chan d).march := by
  rw [chan_updDs]; split <;> simp_all
@[simp] theorem analyser_updDs (s : State) (c d : Chan) (f : Downstream → Downstream) : ((s.updDs c f).chan d).analyser = (s.chan d).analyser := by
  rw [chan_updDs]; split <;> simp_all
@[simp] theorem port_updDs (s : State) (c d : Chan) (f : Downstream → Downstream) : ((s.updDs c f).chan d).port = (s.chan d).port := by
  rw [chan_updDs]; split <;> simp_all
@[simp] theorem inReset_updDs (s : State) (c : Chan) (f : Downstream → Downstream) : (s.updDs c f).inReset = s.inReset := rfl
@[simp] theorem strap_updDs (s : State) (c : Chan) (f : Downstream → Downstream) : (s.updDs c f).strap = s.strap := rfl
@[simp] theorem arbiter_updDs (s : State) (c : Chan) (f : Downstream → Downstream) : (s.updDs c f).arbiter = s.arbiter := rfl
@[simp] theorem shadow_updDs (s : State) (c : Chan) (f : Downstream → Downstream) : (s.updDs c f).shadow = s.shadow := rfl
@[simp] theorem loader_updDs (s : State) (c : Chan) (f : Downstream → Downstream) : (s.updDs c f).loader = s.loader := rfl
@[simp] theorem writer_updDs (s : State) (c : Chan) (f : Downstream → Downstream) : (s.updDs c f).writer = s.writer := rfl
@[simp] theorem board_updDs (s : State) (c : Chan) (f : Downstream → Downstream) : (s.updDs c f).board = s.board := rfl
@[simp] theorem pending_updDs (s : State) (c : Chan) (f : Downstream → Downstream) : (s.updDs c f).pending = s.pending := rfl

/-! ### setAnalyser -/

@[simp] theorem chan_setAnalyser_same (s : State) (c : Chan) (x : Option Analysis) :
    (s.setAnalyser c x).chan c = { s.chan c with analyser := x } := by simp [State.setAnalyser]

theorem chan_setAnalyser_ne (s : State) {c d : Chan} (x : Option Analysis) (h : d ≠ c) : (s.setAnalyser c x).chan d = s.chan d :=
  chan_updChan_ne s _ h

theorem chan_setAnalyser (s : State) (c d : Chan) (x : Option Analysis) :
    (s.setAnalyser c x).chan d = if d = c then { s.chan c with analyser := x } else s.chan d := chan_updChan s c d _

@[simp] theorem supplyGood_setAnalyser (s : State) (c d : Chan) (x : Option Analysis) : ((s.setAnalyser c x).chan d).supplyGood = (s.chan d).supplyGood := by
  rw [chan_setAnalyser]; split <;> simp_all
@[simp] theorem seq_setAnalyser (s : State) (c d : Chan) (x : Option Analysis) : ((s.setAnalyser c x).chan d).seq = (s.chan d).seq := by
  rw [chan_setAnalyser]; split <;> simp_all
@[simp] theorem geometry_setAnalyser (s : State) (c d : Chan) (x : Option Analysis) : ((s.setAnalyser c x).chan d).geometry = (s.chan d).geometry := by
  rw [chan_setAnalyser]; split <;> simp_all
@[simp] theorem remap_setAnalyser (s : State) (c d : Chan) (x : Option Analysis) : ((s.setAnalyser c x).chan d).remap = (s.chan d).remap := by
  rw [chan_setAnalyser]; split <;> simp_all
@[simp] theorem log_setAnalyser (s : State) (c d : Chan) (x : Option Analysis) : ((s.setAnalyser c x).chan d).log = (s.chan d).log := by
  rw [chan_setAnalyser]; split <;> simp_all
@[simp] theorem march_setAnalyser (s : State) (c d : Chan) (x : Option Analysis) : ((s.setAnalyser c x).chan d).march = (s.chan d).march := by
  rw [chan_setAnalyser]; split <;> simp_all
@[simp] theorem ds_setAnalyser (s : State) (c d : Chan) (x : Option Analysis) : ((s.setAnalyser c x).chan d).ds = (s.chan d).ds := by
  rw [chan_setAnalyser]; split <;> simp_all
@[simp] theorem port_setAnalyser (s : State) (c d : Chan) (x : Option Analysis) : ((s.setAnalyser c x).chan d).port = (s.chan d).port := by
  rw [chan_setAnalyser]; split <;> simp_all
@[simp] theorem inReset_setAnalyser (s : State) (c : Chan) (x : Option Analysis) : (s.setAnalyser c x).inReset = s.inReset := rfl
@[simp] theorem strap_setAnalyser (s : State) (c : Chan) (x : Option Analysis) : (s.setAnalyser c x).strap = s.strap := rfl
@[simp] theorem arbiter_setAnalyser (s : State) (c : Chan) (x : Option Analysis) : (s.setAnalyser c x).arbiter = s.arbiter := rfl
@[simp] theorem shadow_setAnalyser (s : State) (c : Chan) (x : Option Analysis) : (s.setAnalyser c x).shadow = s.shadow := rfl
@[simp] theorem loader_setAnalyser (s : State) (c : Chan) (x : Option Analysis) : (s.setAnalyser c x).loader = s.loader := rfl
@[simp] theorem writer_setAnalyser (s : State) (c : Chan) (x : Option Analysis) : (s.setAnalyser c x).writer = s.writer := rfl
@[simp] theorem board_setAnalyser (s : State) (c : Chan) (x : Option Analysis) : (s.setAnalyser c x).board = s.board := rfl
@[simp] theorem pending_setAnalyser (s : State) (c : Chan) (x : Option Analysis) : (s.setAnalyser c x).pending = s.pending := rfl

/-! ### setMarch -/

@[simp] theorem chan_setMarch_same (s : State) (c : Chan) (x : Option Sweep) :
    (s.setMarch c x).chan c = { s.chan c with march := x } := by simp [State.setMarch]

theorem chan_setMarch_ne (s : State) {c d : Chan} (x : Option Sweep) (h : d ≠ c) : (s.setMarch c x).chan d = s.chan d :=
  chan_updChan_ne s _ h

theorem chan_setMarch (s : State) (c d : Chan) (x : Option Sweep) :
    (s.setMarch c x).chan d = if d = c then { s.chan c with march := x } else s.chan d := chan_updChan s c d _

@[simp] theorem supplyGood_setMarch (s : State) (c d : Chan) (x : Option Sweep) : ((s.setMarch c x).chan d).supplyGood = (s.chan d).supplyGood := by
  rw [chan_setMarch]; split <;> simp_all
@[simp] theorem seq_setMarch (s : State) (c d : Chan) (x : Option Sweep) : ((s.setMarch c x).chan d).seq = (s.chan d).seq := by
  rw [chan_setMarch]; split <;> simp_all
@[simp] theorem geometry_setMarch (s : State) (c d : Chan) (x : Option Sweep) : ((s.setMarch c x).chan d).geometry = (s.chan d).geometry := by
  rw [chan_setMarch]; split <;> simp_all
@[simp] theorem remap_setMarch (s : State) (c d : Chan) (x : Option Sweep) : ((s.setMarch c x).chan d).remap = (s.chan d).remap := by
  rw [chan_setMarch]; split <;> simp_all
@[simp] theorem log_setMarch (s : State) (c d : Chan) (x : Option Sweep) : ((s.setMarch c x).chan d).log = (s.chan d).log := by
  rw [chan_setMarch]; split <;> simp_all
@[simp] theorem analyser_setMarch (s : State) (c d : Chan) (x : Option Sweep) : ((s.setMarch c x).chan d).analyser = (s.chan d).analyser := by
  rw [chan_setMarch]; split <;> simp_all
@[simp] theorem ds_setMarch (s : State) (c d : Chan) (x : Option Sweep) : ((s.setMarch c x).chan d).ds = (s.chan d).ds := by
  rw [chan_setMarch]; split <;> simp_all
@[simp] theorem port_setMarch (s : State) (c d : Chan) (x : Option Sweep) : ((s.setMarch c x).chan d).port = (s.chan d).port := by
  rw [chan_setMarch]; split <;> simp_all
@[simp] theorem inReset_setMarch (s : State) (c : Chan) (x : Option Sweep) : (s.setMarch c x).inReset = s.inReset := rfl
@[simp] theorem strap_setMarch (s : State) (c : Chan) (x : Option Sweep) : (s.setMarch c x).strap = s.strap := rfl
@[simp] theorem arbiter_setMarch (s : State) (c : Chan) (x : Option Sweep) : (s.setMarch c x).arbiter = s.arbiter := rfl
@[simp] theorem shadow_setMarch (s : State) (c : Chan) (x : Option Sweep) : (s.setMarch c x).shadow = s.shadow := rfl
@[simp] theorem loader_setMarch (s : State) (c : Chan) (x : Option Sweep) : (s.setMarch c x).loader = s.loader := rfl
@[simp] theorem writer_setMarch (s : State) (c : Chan) (x : Option Sweep) : (s.setMarch c x).writer = s.writer := rfl
@[simp] theorem board_setMarch (s : State) (c : Chan) (x : Option Sweep) : (s.setMarch c x).board = s.board := rfl
@[simp] theorem pending_setMarch (s : State) (c : Chan) (x : Option Sweep) : (s.setMarch c x).pending = s.pending := rfl

/-! ### setLog -/

@[simp] theorem chan_setLog_same (s : State) (c : Chan) (x : FailLog) :
    (s.setLog c x).chan c = { s.chan c with log := x } := by simp [State.setLog]

theorem chan_setLog_ne (s : State) {c d : Chan} (x : FailLog) (h : d ≠ c) : (s.setLog c x).chan d = s.chan d :=
  chan_updChan_ne s _ h

theorem chan_setLog (s : State) (c d : Chan) (x : FailLog) :
    (s.setLog c x).chan d = if d = c then { s.chan c with log := x } else s.chan d := chan_updChan s c d _

@[simp] theorem supplyGood_setLog (s : State) (c d : Chan) (x : FailLog) : ((s.setLog c x).chan d).supplyGood = (s.chan d).supplyGood := by
  rw [chan_setLog]; split <;> simp_all
@[simp] theorem seq_setLog (s : State) (c d : Chan) (x : FailLog) : ((s.setLog c x).chan d).seq = (s.chan d).seq := by
  rw [chan_setLog]; split <;> simp_all
@[simp] theorem geometry_setLog (s : State) (c d : Chan) (x : FailLog) : ((s.setLog c x).chan d).geometry = (s.chan d).geometry := by
  rw [chan_setLog]; split <;> simp_all
@[simp] theorem remap_setLog (s : State) (c d : Chan) (x : FailLog) : ((s.setLog c x).chan d).remap = (s.chan d).remap := by
  rw [chan_setLog]; split <;> simp_all
@[simp] theorem march_setLog (s : State) (c d : Chan) (x : FailLog) : ((s.setLog c x).chan d).march = (s.chan d).march := by
  rw [chan_setLog]; split <;> simp_all
@[simp] theorem analyser_setLog (s : State) (c d : Chan) (x : FailLog) : ((s.setLog c x).chan d).analyser = (s.chan d).analyser := by
  rw [chan_setLog]; split <;> simp_all
@[simp] theorem ds_setLog (s : State) (c d : Chan) (x : FailLog) : ((s.setLog c x).chan d).ds = (s.chan d).ds := by
  rw [chan_setLog]; split <;> simp_all
@[simp] theorem port_setLog (s : State) (c d : Chan) (x : FailLog) : ((s.setLog c x).chan d).port = (s.chan d).port := by
  rw [chan_setLog]; split <;> simp_all
@[simp] theorem inReset_setLog (s : State) (c : Chan) (x : FailLog) : (s.setLog c x).inReset = s.inReset := rfl
@[simp] theorem strap_setLog (s : State) (c : Chan) (x : FailLog) : (s.setLog c x).strap = s.strap := rfl
@[simp] theorem arbiter_setLog (s : State) (c : Chan) (x : FailLog) : (s.setLog c x).arbiter = s.arbiter := rfl
@[simp] theorem shadow_setLog (s : State) (c : Chan) (x : FailLog) : (s.setLog c x).shadow = s.shadow := rfl
@[simp] theorem loader_setLog (s : State) (c : Chan) (x : FailLog) : (s.setLog c x).loader = s.loader := rfl
@[simp] theorem writer_setLog (s : State) (c : Chan) (x : FailLog) : (s.setLog c x).writer = s.writer := rfl
@[simp] theorem board_setLog (s : State) (c : Chan) (x : FailLog) : (s.setLog c x).board = s.board := rfl
@[simp] theorem pending_setLog (s : State) (c : Chan) (x : FailLog) : (s.setLog c x).pending = s.pending := rfl

/-! ### setRemap -/

@[simp] theorem chan_setRemap_same (s : State) (c : Chan) (x : List RemapEntry) :
    (s.setRemap c x).chan c = { s.chan c with remap := x } := by simp [State.setRemap]

theorem chan_setRemap_ne (s : State) {c d : Chan} (x : List RemapEntry) (h : d ≠ c) : (s.setRemap c x).chan d = s.chan d :=
  chan_updChan_ne s _ h

theorem chan_setRemap (s : State) (c d : Chan) (x : List RemapEntry) :
    (s.setRemap c x).chan d = if d = c then { s.chan c with remap := x } else s.chan d := chan_updChan s c d _

@[simp] theorem supplyGood_setRemap (s : State) (c d : Chan) (x : List RemapEntry) : ((s.setRemap c x).chan d).supplyGood = (s.chan d).supplyGood := by
  rw [chan_setRemap]; split <;> simp_all
@[simp] theorem seq_setRemap (s : State) (c d : Chan) (x : List RemapEntry) : ((s.setRemap c x).chan d).seq = (s.chan d).seq := by
  rw [chan_setRemap]; split <;> simp_all
@[simp] theorem geometry_setRemap (s : State) (c d : Chan) (x : List RemapEntry) : ((s.setRemap c x).chan d).geometry = (s.chan d).geometry := by
  rw [chan_setRemap]; split <;> simp_all
@[simp] theorem log_setRemap (s : State) (c d : Chan) (x : List RemapEntry) : ((s.setRemap c x).chan d).log = (s.chan d).log := by
  rw [chan_setRemap]; split <;> simp_all
@[simp] theorem march_setRemap (s : State) (c d : Chan) (x : List RemapEntry) : ((s.setRemap c x).chan d).march = (s.chan d).march := by
  rw [chan_setRemap]; split <;> simp_all
@[simp] theorem analyser_setRemap (s : State) (c d : Chan) (x : List RemapEntry) : ((s.setRemap c x).chan d).analyser = (s.chan d).analyser := by
  rw [chan_setRemap]; split <;> simp_all
@[simp] theorem ds_setRemap (s : State) (c d : Chan) (x : List RemapEntry) : ((s.setRemap c x).chan d).ds = (s.chan d).ds := by
  rw [chan_setRemap]; split <;> simp_all
@[simp] theorem port_setRemap (s : State) (c d : Chan) (x : List RemapEntry) : ((s.setRemap c x).chan d).port = (s.chan d).port := by
  rw [chan_setRemap]; split <;> simp_all
@[simp] theorem inReset_setRemap (s : State) (c : Chan) (x : List RemapEntry) : (s.setRemap c x).inReset = s.inReset := rfl
@[simp] theorem strap_setRemap (s : State) (c : Chan) (x : List RemapEntry) : (s.setRemap c x).strap = s.strap := rfl
@[simp] theorem arbiter_setRemap (s : State) (c : Chan) (x : List RemapEntry) : (s.setRemap c x).arbiter = s.arbiter := rfl
@[simp] theorem shadow_setRemap (s : State) (c : Chan) (x : List RemapEntry) : (s.setRemap c x).shadow = s.shadow := rfl
@[simp] theorem loader_setRemap (s : State) (c : Chan) (x : List RemapEntry) : (s.setRemap c x).loader = s.loader := rfl
@[simp] theorem writer_setRemap (s : State) (c : Chan) (x : List RemapEntry) : (s.setRemap c x).writer = s.writer := rfl
@[simp] theorem board_setRemap (s : State) (c : Chan) (x : List RemapEntry) : (s.setRemap c x).board = s.board := rfl
@[simp] theorem pending_setRemap (s : State) (c : Chan) (x : List RemapEntry) : (s.setRemap c x).pending = s.pending := rfl

/-! ### setGeometry -/

@[simp] theorem chan_setGeometry_same (s : State) (c : Chan) (x : Option Geometry) :
    (s.setGeometry c x).chan c = { s.chan c with geometry := x } := by simp [State.setGeometry]

theorem chan_setGeometry_ne (s : State) {c d : Chan} (x : Option Geometry) (h : d ≠ c) : (s.setGeometry c x).chan d = s.chan d :=
  chan_updChan_ne s _ h

theorem chan_setGeometry (s : State) (c d : Chan) (x : Option Geometry) :
    (s.setGeometry c x).chan d = if d = c then { s.chan c with geometry := x } else s.chan d := chan_updChan s c d _

@[simp] theorem supplyGood_setGeometry (s : State) (c d : Chan) (x : Option Geometry) : ((s.setGeometry c x).chan d).supplyGood = (s.chan d).supplyGood := by
  rw [chan_setGeometry]; split <;> simp_all
@[simp] theorem seq_setGeometry (s : State) (c d : Chan) (x : Option Geometry) : ((s.setGeometry c x).chan d).seq = (s.chan d).seq := by
  rw [chan_setGeometry]; split <;> simp_all
@[simp] theorem remap_setGeometry (s : State) (c d : Chan) (x : Option Geometry) : ((s.setGeometry c x).chan d).remap = (s.chan d).remap := by
  rw [chan_setGeometry]; split <;> simp_all
@[simp] theorem log_setGeometry (s : State) (c d : Chan) (x : Option Geometry) : ((s.setGeometry c x).chan d).log = (s.chan d).log := by
  rw [chan_setGeometry]; split <;> simp_all
@[simp] theorem march_setGeometry (s : State) (c d : Chan) (x : Option Geometry) : ((s.setGeometry c x).chan d).march = (s.chan d).march := by
  rw [chan_setGeometry]; split <;> simp_all
@[simp] theorem analyser_setGeometry (s : State) (c d : Chan) (x : Option Geometry) : ((s.setGeometry c x).chan d).analyser = (s.chan d).analyser := by
  rw [chan_setGeometry]; split <;> simp_all
@[simp] theorem ds_setGeometry (s : State) (c d : Chan) (x : Option Geometry) : ((s.setGeometry c x).chan d).ds = (s.chan d).ds := by
  rw [chan_setGeometry]; split <;> simp_all
@[simp] theorem port_setGeometry (s : State) (c d : Chan) (x : Option Geometry) : ((s.setGeometry c x).chan d).port = (s.chan d).port := by
  rw [chan_setGeometry]; split <;> simp_all
@[simp] theorem inReset_setGeometry (s : State) (c : Chan) (x : Option Geometry) : (s.setGeometry c x).inReset = s.inReset := rfl
@[simp] theorem strap_setGeometry (s : State) (c : Chan) (x : Option Geometry) : (s.setGeometry c x).strap = s.strap := rfl
@[simp] theorem arbiter_setGeometry (s : State) (c : Chan) (x : Option Geometry) : (s.setGeometry c x).arbiter = s.arbiter := rfl
@[simp] theorem shadow_setGeometry (s : State) (c : Chan) (x : Option Geometry) : (s.setGeometry c x).shadow = s.shadow := rfl
@[simp] theorem loader_setGeometry (s : State) (c : Chan) (x : Option Geometry) : (s.setGeometry c x).loader = s.loader := rfl
@[simp] theorem writer_setGeometry (s : State) (c : Chan) (x : Option Geometry) : (s.setGeometry c x).writer = s.writer := rfl
@[simp] theorem board_setGeometry (s : State) (c : Chan) (x : Option Geometry) : (s.setGeometry c x).board = s.board := rfl
@[simp] theorem pending_setGeometry (s : State) (c : Chan) (x : Option Geometry) : (s.setGeometry c x).pending = s.pending := rfl

/-! ### setSeqState -/

@[simp] theorem seqState_setSeqState_same (s : State) (c : Chan) (x : SeqState) :
    (s.setSeqState c x).seqState c = x := by
  simp [State.setSeqState, State.seqState]

theorem seqState_setSeqState_ne (s : State) {c d : Chan} (x : SeqState) (h : d ≠ c) :
    (s.setSeqState c x).seqState d = s.seqState d := by
  simp [State.setSeqState, State.seqState, chan_updSeq_ne s _ h]

theorem chan_setSeqState (s : State) (c d : Chan) (x : SeqState) :
    (s.setSeqState c x).chan d =
      if d = c then { s.chan c with seq := { (s.chan c).seq with state := x } } else s.chan d := chan_updSeq s c d _

@[simp] theorem inReset_setSeqState (s : State) (c : Chan) (x : SeqState) : (s.setSeqState c x).inReset = s.inReset := rfl
@[simp] theorem strap_setSeqState (s : State) (c : Chan) (x : SeqState) : (s.setSeqState c x).strap = s.strap := rfl
@[simp] theorem arbiter_setSeqState (s : State) (c : Chan) (x : SeqState) : (s.setSeqState c x).arbiter = s.arbiter := rfl
@[simp] theorem shadow_setSeqState (s : State) (c : Chan) (x : SeqState) : (s.setSeqState c x).shadow = s.shadow := rfl
@[simp] theorem loader_setSeqState (s : State) (c : Chan) (x : SeqState) : (s.setSeqState c x).loader = s.loader := rfl
@[simp] theorem writer_setSeqState (s : State) (c : Chan) (x : SeqState) : (s.setSeqState c x).writer = s.writer := rfl
@[simp] theorem board_setSeqState (s : State) (c : Chan) (x : SeqState) : (s.setSeqState c x).board = s.board := rfl
@[simp] theorem pending_setSeqState (s : State) (c : Chan) (x : SeqState) : (s.setSeqState c x).pending = s.pending := rfl

/-! ### Updates of the shared blocks leave the channels alone -/

@[simp] theorem chan_updArbiter (s : State) (d : Chan) (f : Arbiter → Arbiter) : (s.updArbiter f).chan d = s.chan d := rfl
@[simp] theorem arbiter_updArbiter (s : State) (f : Arbiter → Arbiter) : (s.updArbiter f).arbiter = f s.arbiter := rfl
@[simp] theorem inReset_updArbiter (s : State) (f : Arbiter → Arbiter) : (s.updArbiter f).inReset = s.inReset := rfl
@[simp] theorem strap_updArbiter (s : State) (f : Arbiter → Arbiter) : (s.updArbiter f).strap = s.strap := rfl
@[simp] theorem shadow_updArbiter (s : State) (f : Arbiter → Arbiter) : (s.updArbiter f).shadow = s.shadow := rfl
@[simp] theorem loader_updArbiter (s : State) (f : Arbiter → Arbiter) : (s.updArbiter f).loader = s.loader := rfl
@[simp] theorem writer_updArbiter (s : State) (f : Arbiter → Arbiter) : (s.updArbiter f).writer = s.writer := rfl
@[simp] theorem board_updArbiter (s : State) (f : Arbiter → Arbiter) : (s.updArbiter f).board = s.board := rfl
@[simp] theorem pending_updArbiter (s : State) (f : Arbiter → Arbiter) : (s.updArbiter f).pending = s.pending := rfl

@[simp] theorem chan_updWriter (s : State) (d : Chan) (f : Writer → Writer) : (s.updWriter f).chan d = s.chan d := rfl
@[simp] theorem writer_updWriter (s : State) (f : Writer → Writer) : (s.updWriter f).writer = f s.writer := rfl
@[simp] theorem inReset_updWriter (s : State) (f : Writer → Writer) : (s.updWriter f).inReset = s.inReset := rfl
@[simp] theorem strap_updWriter (s : State) (f : Writer → Writer) : (s.updWriter f).strap = s.strap := rfl
@[simp] theorem arbiter_updWriter (s : State) (f : Writer → Writer) : (s.updWriter f).arbiter = s.arbiter := rfl
@[simp] theorem shadow_updWriter (s : State) (f : Writer → Writer) : (s.updWriter f).shadow = s.shadow := rfl
@[simp] theorem loader_updWriter (s : State) (f : Writer → Writer) : (s.updWriter f).loader = s.loader := rfl
@[simp] theorem board_updWriter (s : State) (f : Writer → Writer) : (s.updWriter f).board = s.board := rfl
@[simp] theorem pending_updWriter (s : State) (f : Writer → Writer) : (s.updWriter f).pending = s.pending := rfl

@[simp] theorem chan_updLoader (s : State) (d : Chan) (f : Loader → Loader) : (s.updLoader f).chan d = s.chan d := rfl
@[simp] theorem loader_updLoader (s : State) (f : Loader → Loader) : (s.updLoader f).loader = f s.loader := rfl
@[simp] theorem inReset_updLoader (s : State) (f : Loader → Loader) : (s.updLoader f).inReset = s.inReset := rfl
@[simp] theorem strap_updLoader (s : State) (f : Loader → Loader) : (s.updLoader f).strap = s.strap := rfl
@[simp] theorem arbiter_updLoader (s : State) (f : Loader → Loader) : (s.updLoader f).arbiter = s.arbiter := rfl
@[simp] theorem shadow_updLoader (s : State) (f : Loader → Loader) : (s.updLoader f).shadow = s.shadow := rfl
@[simp] theorem writer_updLoader (s : State) (f : Loader → Loader) : (s.updLoader f).writer = s.writer := rfl
@[simp] theorem board_updLoader (s : State) (f : Loader → Loader) : (s.updLoader f).board = s.board := rfl
@[simp] theorem pending_updLoader (s : State) (f : Loader → Loader) : (s.updLoader f).pending = s.pending := rfl

/-! ### The state after reset -/

@[simp] theorem chan_reset (c : Chan) : State.reset.chan c = Channel.reset false := by
  simp [State.reset, State.chan]

end Sys2Proof.Machine
end

