-- ==== Sys2Proof/Laws/Memory.lean ====
section
/-! SUPPORT. The two byte memories: a read after a write, a write leaves every other address alone, and every operation
keeps the canonical form. -/

namespace Sys2Proof.Machine

/-! ### One byte -/

theorem memGet_eq_none_of_forall {m : List Host.Cell} {a : Nat} (h : ∀ x ∈ m, x.1 ≠ a) : memGet m a = none := by
  induction m with
  | nil => rfl
  | cons x m ih =>
    obtain ⟨k, v⟩ := x
    have hk : k ≠ a := h (k, v) (by simp)
    simp [memGet, hk, ih fun y hy => h y (by simp [hy])]

theorem memGet_of_mem_sorted {m : List Host.Cell} (hs : memSorted m) {a : Nat} {v : Byte} (h : (a, v) ∈ m) :
    memGet m a = some v := by
  induction m with
  | nil => simp at h
  | cons x m ih =>
    obtain ⟨k, w⟩ := x
    have hs' := List.pairwise_cons.mp hs
    rcases List.mem_cons.mp h with e | e
    · cases e; simp [memGet]
    · have : k < a := hs'.1 _ e
      simp [memGet, Nat.ne_of_lt this, ih hs'.2 e]

theorem mem_of_memGet {m : List Host.Cell} {a : Nat} {v : Byte} (h : memGet m a = some v) : (a, v) ∈ m := by
  induction m with
  | nil => simp [memGet] at h
  | cons x m ih =>
    obtain ⟨k, w⟩ := x
    simp only [memGet] at h
    split at h
    · simp_all
    · exact List.mem_cons_of_mem _ (ih h)

theorem mem_memPut {a : Nat} {v : Byte} {m : List Host.Cell} {x : Host.Cell} (h : x ∈ memPut a v m) :
    x = (a, v) ∨ x ∈ m := by
  induction m with
  | nil => simpa [memPut] using h
  | cons y m ih =>
    obtain ⟨k, w⟩ := y
    simp only [memPut] at h
    split at h
    · simpa using h
    · split at h
      · rcases List.mem_cons.mp h with e | e
        · exact .inl e
        · exact .inr (by simp [e])
      · rcases List.mem_cons.mp h with e | e
        · exact .inr (by simp [e])
        · rcases ih e with e | e
          · exact .inl e
          · exact .inr (by simp [e])

theorem memPut_sorted {a : Nat} {v : Byte} {m : List Host.Cell} (h : memSorted m) : memSorted (memPut a v m) := by
  induction m with
  | nil => simp [memPut]
  | cons y m ih =>
    obtain ⟨k, w⟩ := y
    have h' := List.pairwise_cons.mp h
    simp only [memPut]
    split
    · refine List.pairwise_cons.mpr ⟨fun x hx => ?_, h⟩
      rcases List.mem_cons.mp hx with e | e
      · subst e; simpa
      · exact Nat.lt_trans ‹a < k› (h'.1 x e)
    · split
      · subst_vars; exact List.pairwise_cons.mpr ⟨fun x hx => h'.1 x hx, h'.2⟩
      · refine List.pairwise_cons.mpr ⟨fun x hx => ?_, ih h'.2⟩
        rcases mem_memPut hx with e | e
        · subst e; dsimp only; omega
        · exact h'.1 x e

theorem memErase_sorted {a : Nat} {m : List Host.Cell} (h : memSorted m) : memSorted (memErase a m) := h.filter _

@[simp] theorem memGet_memPut_same (a : Nat) (v : Byte) (m : List Host.Cell) : memGet (memPut a v m) a = some v := by
  induction m with
  | nil => simp [memPut, memGet]
  | cons y m ih =>
    obtain ⟨k, w⟩ := y
    simp only [memPut]
    split
    · simp [memGet]
    · split
      · simp [memGet]
      · have : ¬ k = a := fun e => ‹¬ a = k› e.symm
        simp [memGet, this, ih]

theorem memGet_memPut_ne {a b : Nat} (v : Byte) (m : List Host.Cell) (h : b ≠ a) :
    memGet (memPut a v m) b = memGet m b := by
  induction m with
  | nil => simp [memPut, memGet, Ne.symm h]
  | cons y m ih =>
    obtain ⟨k, w⟩ := y
    simp only [memPut]
    split
    · simp [memGet, Ne.symm h]
    · split
      · subst_vars; simp [memGet, Ne.symm h]
      · simp [memGet, ih]

@[simp] theorem memGet_memErase_same (a : Nat) (m : List Host.Cell) : memGet (memErase a m) a = none :=
  memGet_eq_none_of_forall fun x hx => by simpa using (List.mem_filter.mp hx).2

theorem memGet_memErase_ne {a b : Nat} (m : List Host.Cell) (h : b ≠ a) : memGet (memErase a m) b = memGet m b := by
  induction m with
  | nil => rfl
  | cons y m ih =>
    obtain ⟨k, w⟩ := y
    by_cases e : k = a
    · subst e
      have : memErase k ((k, w) :: m) = memErase k m := by simp [memErase]
      rw [this, ih]; simp [memGet, Ne.symm h]
    · have : memErase a ((k, w) :: m) = (k, w) :: memErase a m := by simp [memErase, e]
      rw [this]; simp [memGet, ih]

/-! ### The Shadow Row Store -/

@[simp] theorem shadowRead_shadowWrite_same (a : Nat) (v : Byte) (m : List Host.Cell) :
    shadowRead (shadowWrite a v m) a = v := by
  unfold shadowWrite shadowRead
  split <;> simp_all

theorem shadowRead_shadowWrite_ne {a b : Nat} (v : Byte) (m : List Host.Cell) (h : b ≠ a) :
    shadowRead (shadowWrite a v m) b = shadowRead m b := by
  unfold shadowWrite shadowRead
  split
  · rw [memGet_memErase_ne m h]
  · rw [memGet_memPut_ne v m h]

theorem shadowWrite_wf {a : Nat} {v : Byte} {m : List Host.Cell} (h : Memory.wf m) : Memory.wf (shadowWrite a v m) := by
  unfold shadowWrite
  split
  · exact ⟨memErase_sorted h.1, fun x hx => h.2 x (List.mem_filter.mp hx).1⟩
  · refine ⟨memPut_sorted h.1, fun x hx => ?_⟩
    rcases mem_memPut hx with e | e
    · subst e; assumption
    · exact h.2 x e

theorem foldl_shadowWrite_wf (addr : Nat → Nat) (data : Nat → Byte) (l : List Nat) {m : List Host.Cell}
    (h : Memory.wf m) : Memory.wf (l.foldl (fun m i => shadowWrite (addr i) (data i) m) m) := by
  induction l generalizing m with
  | nil => exact h
  | cons i l ih => exact ih (shadowWrite_wf h)

theorem shadowWriteBlock_wf {m : List Host.Cell} (entry col : Nat) (data : Block) (h : Memory.wf m) :
    Memory.wf (shadowWriteBlock m entry col data) :=
  foldl_shadowWrite_wf _ _ _ h

theorem shadowZeroFill_wf {m : List Host.Cell} (entry : Nat) (h : Memory.wf m) : Memory.wf (shadowZeroFill m entry) :=
  ⟨h.1.filter _, fun x hx => h.2 x (List.mem_filter.mp hx).1⟩

theorem reset_store_wf : Memory.wf State.reset.shadow.store := by simp [State.reset, Shadow.reset, Memory.wf, memSorted]

theorem shadowRead_foldl_outside (addr : Nat → Nat) (data : Nat → Byte) (l : List Nat) (m : List Host.Cell) {b : Nat}
    (h : ∀ i ∈ l, addr i ≠ b) :
    shadowRead (l.foldl (fun m i => shadowWrite (addr i) (data i) m) m) b = shadowRead m b := by
  induction l generalizing m with
  | nil => rfl
  | cons i l ih =>
    rw [List.foldl_cons, ih _ fun j hj => h j (by simp [hj]),
      shadowRead_shadowWrite_ne _ _ (Ne.symm (h i (by simp)))]

/-- A block write leaves every byte outside its 64 alone (R85). -/
theorem shadowRead_shadowWriteBlock_outside (m : List Host.Cell) (entry col : Nat) (data : Block) {b : Nat}
    (h : ∀ i < 64, shadowAddr entry (col * 64 + i) ≠ b) :
    shadowRead (shadowWriteBlock m entry col data) b = shadowRead m b :=
  shadowRead_foldl_outside _ _ _ m fun i hi => h i (List.mem_range.mp hi)

theorem shadowRead_foldl_inside (addr : Nat → Nat) (data : Nat → Byte) (l : List Nat) (m : List Host.Cell)
    (hinj : ∀ i ∈ l, ∀ j ∈ l, addr i = addr j → i = j) (hn : l.Nodup) {i : Nat} (hi : i ∈ l) :
    shadowRead (l.foldl (fun m i => shadowWrite (addr i) (data i) m) m) (addr i) = data i := by
  induction l generalizing m with
  | nil => simp at hi
  | cons j l ih =>
    obtain ⟨hj, hn'⟩ := List.nodup_cons.mp hn
    rw [List.foldl_cons]
    rcases List.mem_cons.mp hi with e | e
    · subst e
      rw [shadowRead_foldl_outside _ _ _ _ fun k hk e' => hj ?_, shadowRead_shadowWrite_same]
      rw [← hinj k (by simp [hk]) i (by simp) e']; exact hk
    · exact ih _ (fun a ha b hb => hinj a (by simp [ha]) b (by simp [hb])) hn' e

/-- Inside its 64 bytes a block write leaves the data's bytes (R85). -/
theorem shadowRead_shadowWriteBlock_inside (m : List Host.Cell) (entry col : Nat) (data : Block) {i : Nat}
    (h : i < 64) :
    shadowRead (shadowWriteBlock m entry col data) (shadowAddr entry (col * 64 + i)) = blockByte data i :=
  shadowRead_foldl_inside (fun i => shadowAddr entry (col * 64 + i)) (blockByte data) _ m
    (fun a _ b _ e => by unfold shadowAddr at e; omega) (List.nodup_range) (List.mem_range.mpr h)

/-! ### The record of DRAM writes -/

theorem foldl_memPut_sorted (addr : Nat → Nat) (data : Nat → Byte) (l : List Nat) {m : List Host.Cell}
    (h : memSorted m) : memSorted (l.foldl (fun m i => memPut (addr i) (data i) m) m) := by
  induction l generalizing m with
  | nil => exact h
  | cons i l ih => exact ih (memPut_sorted h)

theorem dramLand_sorted (op : DsOp) (data : Block) {m : List Host.Cell} (h : memSorted m) :
    memSorted (dramLand op data m) :=
  foldl_memPut_sorted _ _ _ h

theorem foldl_memErase_sorted (addr : Nat → Nat) (l : List Nat) {m : List Host.Cell} (h : memSorted m) :
    memSorted (l.foldl (fun m i => memErase (addr i) m) m) := by
  induction l generalizing m with
  | nil => exact h
  | cons i l ih => exact ih (memErase_sorted h)

theorem dramDoubt_sorted (op : DsOp) {m : List Host.Cell} (h : memSorted m) : memSorted (dramDoubt op m) := by
  unfold dramDoubt
  split
  · exact h
  · exact foldl_memErase_sorted _ _ h

theorem memGet_foldl_memPut_outside (addr : Nat → Nat) (data : Nat → Byte) (l : List Nat) (m : List Host.Cell) {b : Nat}
    (h : ∀ i ∈ l, addr i ≠ b) : memGet (l.foldl (fun m i => memPut (addr i) (data i) m) m) b = memGet m b := by
  induction l generalizing m with
  | nil => rfl
  | cons i l ih =>
    rw [List.foldl_cons, ih _ fun j hj => h j (by simp [hj]), memGet_memPut_ne _ _ (Ne.symm (h i (by simp)))]

/-- A completed write leaves every byte outside its block alone (R35). -/
theorem memGet_dramLand_outside (op : DsOp) (data : Block) (m : List Host.Cell) {b : Nat}
    (h : ∀ i < 64, dramAddr op.layout op.bank op.row op.col i ≠ b) : memGet (dramLand op data m) b = memGet m b :=
  memGet_foldl_memPut_outside _ _ _ m fun i hi => h i (List.mem_range.mp hi)

theorem dramAddr_injective (w : Width) (bank row col : Nat) {i j : Nat}
    (h : dramAddr w bank row col i = dramAddr w bank row col j) : i = j := by
  unfold dramAddr at h
  cases w <;> simp only at h <;> omega

theorem memGet_foldl_memPut_inside (addr : Nat → Nat) (data : Nat → Byte) (l : List Nat) (m : List Host.Cell)
    (hinj : ∀ i j, addr i = addr j → i = j) (hn : l.Nodup) {i : Nat} (hi : i ∈ l) :
    memGet (l.foldl (fun m i => memPut (addr i) (data i) m) m) (addr i) = some (data i) := by
  induction l generalizing m with
  | nil => simp at hi
  | cons j l ih =>
    obtain ⟨hj, hn'⟩ := List.nodup_cons.mp hn
    rw [List.foldl_cons]
    rcases List.mem_cons.mp hi with e | e
    · subst e
      rw [memGet_foldl_memPut_outside _ _ _ _ fun k hk e' => hj (hinj k i e' ▸ hk), memGet_memPut_same]
    · exact ih _ hn' e

/-- A completed write leaves its data in its block (R35). -/
theorem memGet_dramLand_inside (op : DsOp) (data : Block) (m : List Host.Cell) {i : Nat} (h : i < 64) :
    memGet (dramLand op data m) (dramAddr op.layout op.bank op.row op.col i) = some (blockByte data i) :=
  memGet_foldl_memPut_inside (fun i => dramAddr op.layout op.bank op.row op.col i) _ _ m
    (fun _ _ h => dramAddr_injective _ _ _ _ h) List.nodup_range (List.mem_range.mpr h)

/-- What a list of addresses taken off the record leaves at an address. -/
theorem memGet_foldl_memErase (addr : Nat → Nat) (l : List Nat) (m : List Host.Cell) (b : Nat) :
    memGet (l.foldl (fun m i => memErase (addr i) m) m) b = if ∃ i ∈ l, addr i = b then none else memGet m b := by
  induction l generalizing m with
  | nil => simp
  | cons i l ih =>
    rw [List.foldl_cons, ih]
    by_cases hl : ∃ j ∈ l, addr j = b
    · simp [hl]
    · by_cases hi : addr i = b
      · subst hi; simp
      · rw [memGet_memErase_ne m (Ne.symm hi)]; simp [hl, hi]

/-- An abandoned write takes its block out of the record, and nothing else (R32, R101). -/
theorem memGet_dramDoubt (op : DsOp) (m : List Host.Cell) (h : op.write ≠ none) (b : Nat) :
    memGet (dramDoubt op m) b =
      if ∃ i ∈ blockOffsets, dramAddr op.layout op.bank op.row op.col i = b then none else memGet m b := by
  obtain ⟨data, hw⟩ := Option.ne_none_iff_exists'.mp h
  simp only [dramDoubt, hw, memGet_foldl_memErase]

end Sys2Proof.Machine
end

