-- ==== Sys2Proof/Laws/Ops.lean ====
section
/-! SUPPORT. For each shared operation one lemma that says what it does, so that proofs cite it and do not unfold it. -/

namespace Sys2Proof.Machine

/-! ### The Downstream Sequencer's stream -/

theorem handOver_chan (s : State) (c : Chan) (op : DsOp) :
    (s.handOver c op).chan c = { s.chan c with ds := { (s.chan c).ds with ops := (s.chan c).ds.ops ++ [op] } } := by
  simp [State.handOver]

theorem handOver_chan_ne (s : State) {c d : Chan} (op : DsOp) (h : d ≠ c) : (s.handOver c op).chan d = s.chan d :=
  chan_updDs_ne _ _ h

theorem handOver_shared (s : State) (c : Chan) (op : DsOp) :
    s.handOver c op = { s with chans := (s.handOver c op).chans } := rfl

theorem completeHead_chan (s : State) (c : Chan) {op : DsOp} {rest : List DsOp} (h : (s.chan c).ds.ops = op :: rest) :
    (s.completeHead c).chan c =
      { s.chan c with ds := { (s.chan c).ds with ops := rest, written := landAll [op] (s.chan c).ds.written } } := by
  obtain ⟨_, w, _⟩ := op
  cases w <;> simp [State.completeHead, h, landAll]

theorem dropOps_chan (s : State) (c : Chan) (p : DsOp → Bool) :
    (s.dropOps c p).chan c =
      { s.chan c with
        ds := { (s.chan c).ds with
          ops := (s.chan c).ds.ops.filter fun op => !p op,
          written := ((s.chan c).ds.ops.filter p).foldl (fun m op => dramDoubt op m) (s.chan c).ds.written } } := by
  simp [State.dropOps]

theorem mapOps_chan (s : State) (c : Chan) (f : DsOp → DsOp) :
    (s.mapOps c f).chan c = { s.chan c with ds := { (s.chan c).ds with ops := (s.chan c).ds.ops.map f } } := by
  simp [State.mapOps]

/-- Handing over a list of operations. -/
theorem foldl_handOver_chan (ops : List DsOp) (s : State) (c : Chan) :
    (ops.foldl (fun x op => x.handOver c op) s).chan c =
      { s.chan c with ds := { (s.chan c).ds with ops := (s.chan c).ds.ops ++ ops } } := by
  induction ops generalizing s with
  | nil => simp
  | cons op ops ih => simp [ih, handOver_chan]

theorem foldl_handOver_chan_ne (ops : List DsOp) (s : State) {c d : Chan} (h : d ≠ c) :
    (ops.foldl (fun x op => x.handOver c op) s).chan d = s.chan d := by
  induction ops generalizing s with
  | nil => rfl
  | cons op ops ih => exact (ih _).trans (chan_updDs_ne _ _ h)

theorem foldl_handOver_shared (ops : List DsOp) (s : State) (c : Chan) :
    ops.foldl (fun x op => x.handOver c op) s =
      { s with chans := (ops.foldl (fun x op => x.handOver c op) s).chans } := by
  induction ops generalizing s with
  | nil => rfl
  | cons op ops ih => exact ih (s.handOver c op)

/-! ### Results, opening and the board lines -/

theorem takeResult_chan (s : State) (c d : Chan) (r : EndResult) (why : Reason) :
    (s.takeResult c r why).chan d =
      if d = c then { s.chan c with seq := { (s.chan c).seq with result := r, reason := why } } else s.chan d := by
  exact chan_updSeq s c d fun q => { q with result := r, reason := why }

theorem takeResult_board (s : State) (c : Chan) (r : EndResult) (why : Reason) :
    (s.takeResult c r why).board = { s.board with fault := s.board.fault || r.isFault } := rfl

theorem failChannel_chan (s : State) (c d : Chan) (why : Reason) :
    (s.failChannel c why).chan d =
      if d = c then { s.chan c with seq := { (s.chan c).seq with state := .failed, result := .failed, reason := why } }
      else s.chan d := by
  unfold State.failChannel
  rw [chan_setSeqState, takeResult_chan]
  split <;> simp [takeResult_chan, *]

theorem failChannel_board (s : State) (c : Chan) (why : Reason) :
    (s.failChannel c why).board = { s.board with fault := true } := by
  simp [State.failChannel, takeResult_board, EndResult.isFault]

theorem openChannel_chan (s : State) (c d : Chan) :
    (s.openChannel c).chan d =
      if d = c then
        { s.chan c with
          seq := { (s.chan c).seq with state := .opened },
          port := { (s.chan c).port with credit := 16, outbound := (s.chan c).port.outbound ++ [.restore 16] } }
      else s.chan d := by
  unfold State.openChannel
  rw [chan_updPort, chan_setSeqState]
  split <;> simp_all [chan_setSeqState, Config.creditMax]

theorem openChannel_shared (s : State) (c : Chan) : s.openChannel c = { s with chans := (s.openChannel c).chans } := rfl

/-- READY and its note become active when every channel is settled; nothing else changes (R157). -/
theorem raiseReady_eq (s : State) :
    s.raiseReady = { s with board := { s.board with
      ready := s.board.ready || s.allSettled, readyRaised := s.board.readyRaised || s.allSettled } } := by
  unfold State.raiseReady
  split <;> simp_all

@[simp] theorem raiseReady_chan (s : State) (c : Chan) : s.raiseReady.chan c = s.chan c := by
  rw [raiseReady_eq]; rfl

/-! ### Credits -/

/-- A returned credit (R136, R138). -/
theorem returnCredit_eq (p : Port) :
    p.returnCredit = { p with credit := p.credit + 1, outbound := creditReturned p.headBegun p.outbound } := by
  unfold Port.returnCredit creditReturned
  cases p.outbound.getLast? with
  | none => rfl
  | some m =>
    cases m with
    | grant n =>
      simp only [Bool.and_eq_true, decide_eq_true_eq]
      split <;> rfl
    | restore n => rfl
    | response tag lenCode st data => rfl

/-! ### Slots -/

theorem startSweep_chan (s : State) (c : Chan) (bank : Nat) {g : Geometry} (h : (s.chan c).geometry = some g) :
    (s.startSweep c bank).chan c =
      let m := Sweep.start (s.chan c).seq.march bank g
      { s.chan c with march := some m, ds := { (s.chan c).ds with ops := (s.chan c).ds.ops ++ m.blockOps g } } := by
  simp only [State.startSweep, h, State.handSweepBlock, chan_setMarch_same, foldl_handOver_chan]

theorem startSweep_chan_ne (s : State) {c d : Chan} (bank : Nat) (h : d ≠ c) :
    (s.startSweep c bank).chan d = s.chan d := by
  unfold State.startSweep State.handSweepBlock
  split
  · split
    · rw [foldl_handOver_chan_ne _ _ h, chan_setMarch_ne _ _ h]
    · rw [chan_setMarch_ne _ _ h]
  · rfl

theorem startSweep_shared (s : State) (c : Chan) (bank : Nat) :
    s.startSweep c bank = { s with chans := (s.startSweep c bank).chans } := by
  unfold State.startSweep State.handSweepBlock
  split
  · split
    · rw [foldl_handOver_shared]; rfl
    · rfl
  · rfl

/-- A grant makes the channel a holder, TESTING its next bank (R97, R111). -/
theorem grantSlot_shared (s : State) (c : Chan) :
    s.grantSlot c = { s with chans := (s.grantSlot c).chans,
                             arbiter := { s.arbiter with holders := s.arbiter.holders ++ [c] } } := by
  unfold State.grantSlot
  rw [startSweep_shared]; rfl

theorem grantSlot_chan (s : State) (c : Chan) {g : Geometry} (h : (s.chan c).geometry = some g) :
    (s.grantSlot c).chan c =
      let m := Sweep.start (s.chan c).seq.march (s.chan c).seq.nextBank g
      { s.chan c with
        seq := { (s.chan c).seq with state := .testing, entered := (s.chan c).seq.entered ++ [(s.chan c).seq.nextBank] },
        march := some m, ds := { (s.chan c).ds with ops := (s.chan c).ds.ops ++ m.blockOps g } } := by
  unfold State.grantSlot
  rw [startSweep_chan (g := g)]
  · simp [Sequencer.march]
  · simpa using h

theorem grantSlot_chan_ne (s : State) {c d : Chan} (h : d ≠ c) : (s.grantSlot c).chan d = s.chan d := by
  unfold State.grantSlot
  rw [startSweep_chan_ne _ _ h, chan_updSeq_ne _ _ h, chan_updArbiter]

/-- A released slot passes to the head of the wait queue, or is free (R112). -/
theorem releaseSlot_shared (s : State) (c : Chan) :
    s.releaseSlot c = { s with chans := (s.releaseSlot c).chans, arbiter := slotPassed s.arbiter c } := by
  unfold State.releaseSlot
  simp only [arbiter_updArbiter]
  split
  · rename_i h; simp [State.updArbiter, slotPassed, h]
  · rename_i h; rw [grantSlot_shared]; simp [State.updArbiter, slotPassed, h]

theorem releaseSlot_chan (s : State) (c d : Chan) (h : s.arbiter.waitQueue.head? ≠ some d) :
    (s.releaseSlot c).chan d = s.chan d := by
  unfold State.releaseSlot
  simp only [arbiter_updArbiter]
  split
  · rfl
  · rename_i hq
    rw [grantSlot_chan_ne _ (fun e => h (by simp [hq, e]))]
    rfl

theorem releaseSlot_chan_head (s : State) (c d : Chan) (h : s.arbiter.waitQueue.head? = some d) {g : Geometry}
    (hg : (s.chan d).geometry = some g) :
    (s.releaseSlot c).chan d =
      let m := Sweep.start (s.chan d).seq.march (s.chan d).seq.nextBank g
      { s.chan d with
        seq := { (s.chan d).seq with state := .testing, entered := (s.chan d).seq.entered ++ [(s.chan d).seq.nextBank] },
        march := some m, ds := { (s.chan d).ds with ops := (s.chan d).ds.ops ++ m.blockOps g } } := by
  unfold State.releaseSlot
  simp only [arbiter_updArbiter]
  split
  · rename_i hq; simp [hq] at h
  · rename_i head rest hq
    obtain rfl : head = d := by simpa [hq] using h
    exact grantSlot_chan _ _ hg

/-- A request for a slot is granted at once while one is free, else it waits at the tail of the queue (R111). -/
theorem requestSlot_cases (s : State) (c : Chan) :
    (s.arbiter.holders.length < s.arbiter.slots ∧ s.requestSlot c = (s.setSeqState c .queued).grantSlot c) ∨
    (s.arbiter.slots ≤ s.arbiter.holders.length ∧
      s.requestSlot c = { s.setSeqState c .queued with
        arbiter := { s.arbiter with waitQueue := s.arbiter.waitQueue ++ [c] } }) := by
  unfold State.requestSlot
  by_cases h : s.arbiter.holders.length < s.arbiter.slots
  · exact .inl ⟨h, by simp [h]⟩
  · exact .inr ⟨by omega, by simp [h, State.updArbiter]⟩

/-! ### The Fail Log -/

theorem setStatus_failedSpares (l : FailLog) (bank row : Nat) (st : RecStatus) (x : Option Nat) :
    (l.setStatus bank row st x).failedSpares = l.failedSpares := rfl

theorem setStatus_keys (l : FailLog) (bank row : Nat) (st : RecStatus) (x : Option Nat) :
    (l.setStatus bank row st x).records.map (fun r => (r.bank, r.row)) = l.records.map fun r => (r.bank, r.row) := by
  simp only [FailLog.setStatus, List.map_map]
  refine List.map_congr_left fun r _ => ?_
  simp only [Function.comp]
  split <;> rfl

/-! ### What a change of state brings about in the Report Writer and the Board Line Unit -/

theorem KeepsRecord.rfl' (a : Channel) : KeepsRecord a a := by simp [KeepsRecord]

theorem KeepsRecord.trans {a b c : Channel} (h1 : KeepsRecord a b) (h2 : KeepsRecord b c) : KeepsRecord a c := by
  obtain ⟨supply, geometry, remap, log, march, analyser, seq, opens, ds, stream⟩ := h1
  refine ⟨h2.1.trans supply, h2.2.1.trans geometry, h2.2.2.1.trans remap, h2.2.2.2.1.trans log, ?_⟩
  obtain ⟨march', analyser', seq', opens', ds', stream'⟩ := h2.2.2.2.2
  refine ⟨march'.trans march, analyser'.trans analyser, by rw [seq', seq], ?_, by rw [ds', ds], stream'.trans stream⟩
  rcases opens with stays | ⟨wasDone, isOpen, restored⟩
  · rcases opens' with stays' | opens'
    · exact .inl ⟨stays'.1.trans stays.1, stays'.2.trans stays.2⟩
    · exact .inr ⟨stays.1 ▸ opens'.1, opens'.2.1, stays.2 ▸ opens'.2.2⟩
  · rcases opens' with stays' | opens'
    · exact .inr ⟨wasDone, stays'.1.trans isOpen, stays'.2.trans restored⟩
    · exact absurd (isOpen.symm.trans opens'.1) (by decide)

theorem KeepsShared.rfl' (s : State) : KeepsShared s s := by simp [KeepsShared]

theorem KeepsShared.trans {a b c : State} (h1 : KeepsShared a b) (h2 : KeepsShared b c) : KeepsShared a c := by
  obtain ⟨inReset, strap, shadow, loader, pending, ready⟩ := h1
  exact ⟨h2.1.trans inReset, h2.2.1.trans strap, h2.2.2.1.trans shadow, h2.2.2.2.1.trans loader,
    h2.2.2.2.2.1.trans pending, h2.2.2.2.2.2 ∘ ready⟩

/-- What the Report Writer and the Board Line Unit do of themselves touches no more than this. -/
def Bystander (s t : State) : Prop :=
  KeepsShared s t ∧ t.arbiter = s.arbiter ∧ t.board.fault = s.board.fault ∧ ∀ d, KeepsRecord (s.chan d) (t.chan d)

theorem Bystander.rfl' (s : State) : Bystander s s := ⟨.rfl' s, rfl, rfl, fun _ => .rfl' _⟩

theorem Bystander.trans {a b c : State} (h1 : Bystander a b) (h2 : Bystander b c) : Bystander a c :=
  ⟨h1.1.trans h2.1, h2.2.1.trans h1.2.1, h2.2.2.1.trans h1.2.2.1, fun d => (h1.2.2.2 d).trans (h2.2.2.2 d)⟩

theorem bystander_updWriter (s : State) (f : Writer → Writer) : Bystander s (s.updWriter f) :=
  ⟨⟨rfl, rfl, rfl, rfl, rfl, id⟩, rfl, rfl, fun _ => .rfl' _⟩

theorem bystander_handOver (s : State) (c : Chan) (op : DsOp) (h : op.isReport = true) : Bystander s (s.handOver c op) := by
  refine ⟨⟨rfl, rfl, rfl, rfl, rfl, id⟩, rfl, rfl, fun d => ?_⟩
  by_cases hd : d = c
  · subst hd; rw [handOver_chan]; simp [KeepsRecord, h]
  · rw [State.handOver, chan_updDs_ne _ _ hd]; exact .rfl' _

theorem bystander_discardReport (s : State) (c : Chan) : Bystander s (s.mapOps c DsOp.discardReport) := by
  refine ⟨⟨rfl, rfl, rfl, rfl, rfl, id⟩, rfl, rfl, fun d => ?_⟩
  by_cases hd : d = c
  · subst hd
    rw [mapOps_chan]
    have key : ∀ l : List DsOp, (l.map DsOp.discardReport).filter (fun op => !op.isReport) =
        l.filter fun op => !op.isReport := by
      intro l
      induction l with
      | nil => rfl
      | cons op l ih =>
        rw [List.map_cons, List.filter_cons, List.filter_cons, ih]
        obtain ⟨owner, _⟩ := op
        cases owner <;> rfl
    simp [KeepsRecord, key]
  · rw [State.mapOps, chan_updDs_ne _ _ hd]; exact .rfl' _

theorem bystander_openChannel (s : State) (c : Chan) (h : s.seqState c = .done) : Bystander s (s.openChannel c) := by
  refine ⟨⟨rfl, rfl, rfl, rfl, rfl, id⟩, rfl, rfl, fun d => ?_⟩
  rw [openChannel_chan]
  split
  · subst_vars; exact ⟨rfl, rfl, rfl, rfl, rfl, rfl, rfl, .inr ⟨h, rfl, rfl⟩, rfl, rfl⟩
  · exact .rfl' _

/-- A translated report block joins the stream, is handed to the Shadow Row Store, or is discarded (R17, R86). -/
theorem carryReportBlock_carried (s : State) (w : Write) : BlockCarried s (s.carryReportBlock w) w := by
  unfold BlockCarried State.carryReportBlock portOp
  dsimp only
  cases (s.chan w.chan).dest (w.base + w.index) <;> dsimp only
  case direct | spare =>
    refine ⟨rfl, fun d hd => handOver_chan_ne s _ hd, rfl, fun o h => ?_, by simp, by simp⟩
    obtain rfl := Option.some.inj h
    exact ⟨handOver_chan s _ _, rfl⟩
  case shadow =>
    refine ⟨rfl, fun _ _ => rfl, rfl, by simp, fun e col h => ?_, by simp⟩
    obtain ⟨rfl, rfl⟩ := Dest.shadow.inj h
    exact ⟨rfl, rfl⟩
  case outside => exact ⟨rfl, fun _ _ => rfl, rfl, by simp, by simp, fun _ => ⟨rfl, rfl⟩⟩

theorem carryWaitingReport_first (s : State) (c : Chan) : ReportFirst s (s.carryWaitingReport c) c := by
  unfold ReportFirst State.carryWaitingReport
  cases s.writer.write with
  | none => exact ⟨nofun, fun _ => rfl⟩
  | some w =>
    refine ⟨?_, fun h => ?_⟩
    · rintro _ ⟨⟩ hc hw
      simpa [hc, hw] using carryReportBlock_carried s w
    · simp only
      rw [if_neg fun hw => h w rfl hw.1 hw.2]

/-- The store serves a report block: only its bytes and what has become of the block change (R86). -/
theorem storeReport_eq (s : State) (c : Chan) :
    s.storeReport c = { s with
      shadow := { s.shadow with store := (s.storeReport c).shadow.store },
      writer := { s.writer with write := (s.storeReport c).writer.write } } := by
  unfold State.storeReport State.storeWrite
  cases s.writer.write with
  | none => rfl
  | some w =>
    simp only
    split
    · cases w.blockAt <;> rfl
    · rfl

@[simp] theorem storeReport_chan (s : State) (c d : Chan) : (s.storeReport c).chan d = s.chan d := by
  rw [storeReport_eq]; rfl

/-- A block that the store has served is not served again. -/
@[simp] theorem storeReport_storeReport (s : State) (c : Chan) : (s.storeReport c).storeReport c = s.storeReport c := by
  unfold State.storeReport State.storeWrite
  cases hw : s.writer.write with
  | none => simp [hw]
  | some w =>
    by_cases hc : w.chan = c
    · cases hb : w.blockAt <;> simp [State.updWriter, *]
    · simp [hw, hc]

/-- A request leaves: its credit, then the report block that waits (R17, R138). -/
theorem requestLeaves_eq (s : State) (p : Chan) : s.requestLeaves p = (leaves s p).carryWaitingReport p := by
  unfold State.requestLeaves leaves
  by_cases h : s.seqState p = .opened <;> simp [h, returnCredit_eq]

theorem bystander_carryReportBlock (s : State) (w : Write) : Bystander s (s.carryReportBlock w) := by
  unfold State.carryReportBlock
  simp only
  split
  · exact (bystander_handOver s _ _ rfl).trans (bystander_updWriter _ _)
  · exact (bystander_handOver s _ _ rfl).trans (bystander_updWriter _ _)
  · exact bystander_updWriter _ _
  · exact bystander_updWriter _ _

theorem bystander_handReportBlock (s : State) (w : Write) : Bystander s (s.handReportBlock w) := by
  unfold State.handReportBlock
  split
  · exact bystander_carryReportBlock s w
  · exact bystander_updWriter _ _

theorem bystander_startWrite (s : State) : Bystander s s.startWrite := by
  unfold State.startWrite
  simp only
  split
  · exact bystander_updWriter _ _
  · exact (bystander_updWriter _ _).trans (bystander_handReportBlock _ _)

/-- A write ends (R99, R155): the channels of its start set that are DONE open, the others stand. -/
theorem endWrite_chan (s : State) (w : Write) (d : Chan) :
    (s.endWrite w).chan d = if d ∈ w.startSet ∧ s.seqState d = .done then (s.openChannel d).chan d else s.chan d := by
  suffices h : ∀ (l : List Chan) (x : State),
      (l.foldl (fun x c => if x.seqState c = .done then x.openChannel c else x) x).chan d =
        if d ∈ l ∧ x.seqState d = .done then (x.openChannel d).chan d else x.chan d from h w.startSet s
  intro l
  induction l with
  | nil => simp
  | cons c l ih =>
    intro x
    rw [List.foldl_cons, ih]
    unfold State.seqState
    by_cases hd : d = c
    · subst hd
      by_cases hx : (x.chan d).seq.state = .done <;> simp [hx, openChannel_chan]
    · by_cases hx : (x.chan c).seq.state = .done <;> simp [hx, hd, openChannel_chan]

theorem bystander_endWrite (s : State) (w : Write) : Bystander s (s.endWrite w) := by
  refine Bystander.trans ?_ (bystander_updWriter _ _)
  induction w.startSet generalizing s with
  | nil => exact .rfl' s
  | cons c l ih =>
    refine Bystander.trans ?_ (ih _)
    show Bystander s (if s.seqState c = .done then s.openChannel c else s)
    split
    · exact bystander_openChannel s c ‹_›
    · exact .rfl' s

theorem bystander_abandonWrite (s : State) : Bystander s s.abandonWrite := by
  unfold State.abandonWrite
  split
  · split
    · exact .rfl' s
    · exact (bystander_discardReport s _).trans (bystander_endWrite _ _)
  · exact .rfl' s

theorem bystander_maybeStart (s : State) : Bystander s s.maybeStart := by
  unfold State.maybeStart
  split
  · exact bystander_startWrite s
  · exact .rfl' s

theorem bystander_raiseReady (s : State) : Bystander s s.raiseReady := by
  rw [raiseReady_eq]
  exact ⟨⟨rfl, rfl, rfl, rfl, rfl, fun h => by simp [h]⟩, rfl, rfl, fun _ => .rfl' _⟩

/-- A change of a channel's state, once made, brings about no more than this (R99, R152, R155 to R157). -/
theorem bystander_settle (s : State) : Bystander s s.settle :=
  ((bystander_abandonWrite s).trans (bystander_maybeStart _)).trans (bystander_raiseReady _)

/-- With no write in progress a change of state only starts one that is due, and may raise READY (R152, R157). -/
theorem settle_of_idle {s : State} (h : s.writer.write = none) : s.settle = s.maybeStart.raiseReady := by
  unfold State.settle State.abandonWrite
  rw [h]

/-- The automatic start is due when no channel is testing and one is DONE (R152). -/
theorem autoDue_iff (s : State) :
    s.autoDue = true ↔ (∀ c, s.seqState c ∉ testingStates) ∧ ∃ c, s.seqState c = .done := by
  have key : ∀ x : SeqState, x.isTesting = true ↔ x ∈ testingStates := by
    intro x; cases x <;> simp [SeqState.isTesting, testingStates]
  have all : ∀ c : Chan, c ∈ allChans := by decide
  simp only [State.autoDue, Bool.and_eq_true, List.all_eq_true, List.any_eq_true, all, true_implies, true_and, ← key,
    Bool.not_eq_true', Bool.not_eq_true, beq_iff_eq]

/-- A publish escape touches no more than this (R148, R152). -/
theorem bystander_publish (s : State) : Bystander s s.publish := by
  unfold State.publish
  split
  · exact (bystander_updWriter s _).trans (bystander_maybeStart _)
  · exact .rfl' s

end Sys2Proof.Machine
end

