-- ==== Sys2Proof/Laws/PerInstr.lean ====
section
/-! SUPPORT. Statements about each command as syntax, one lemma a constructor. -/

namespace Sys2Proof.Laws

/-- No word spells the command: the opcode table gives its row no bits (log entry 1). -/
def NoWord.Statement (i : Instr) : Prop := ∀ nbits w, decodeTableWord nbits w ≠ some i

theorem NoWord.resetAssertion : NoWord.Statement (.resetAssertion) := nofun
theorem NoWord.resetRelease (lanes : BitVec 8) : NoWord.Statement (.resetRelease lanes) := nofun
theorem NoWord.supplyGoodRise (c : Chan) : NoWord.Statement (.supplyGoodRise c) := nofun
theorem NoWord.supplyGoodFall (c : Chan) : NoWord.Statement (.supplyGoodFall c) := nofun
theorem NoWord.supplyWaitExpiry (c : Chan) : NoWord.Statement (.supplyWaitExpiry c) := nofun
theorem NoWord.identitySample (c : Chan) (nibble : BitVec 4) : NoWord.Statement (.identitySample c nibble) := nofun
theorem NoWord.widthCheckOpComplete (c : Chan) (data : Block) : NoWord.Statement (.widthCheckOpComplete c data) := nofun
theorem NoWord.statusReadComplete (status : Byte) : NoWord.Statement (.statusReadComplete status) := nofun
theorem NoWord.statusPollExpiry : NoWord.Statement (.statusPollExpiry) := nofun
theorem NoWord.descriptorByte (b : Byte) (order : List Chan) : NoWord.Statement (.descriptorByte b order) := nofun
theorem NoWord.descriptorCheck (order : List Chan) : NoWord.Statement (.descriptorCheck order) := nofun
theorem NoWord.descriptorParse (expired order : List Chan) : NoWord.Statement (.descriptorParse expired order) := nofun
theorem NoWord.loadLimitExpiry (order : List Chan) : NoWord.Statement (.loadLimitExpiry order) := nofun
theorem NoWord.budgetExpiry (c : Chan) : NoWord.Statement (.budgetExpiry c) := nofun
theorem NoWord.sweepOpsComplete (c : Chan) (reads : List Block) : NoWord.Statement (.sweepOpsComplete c reads) := nofun
theorem NoWord.pauseExpiry (c : Chan) : NoWord.Statement (.pauseExpiry c) := nofun
theorem NoWord.shadowClaim (c : Chan) : NoWord.Statement (.shadowClaim c) := nofun
theorem NoWord.analysisComplete (c : Chan) : NoWord.Statement (.analysisComplete c) := nofun
theorem NoWord.noResponse (c : Chan) : NoWord.Statement (.noResponse c) := nofun
theorem NoWord.requestArrival (p : Chan) (header : Vector Byte 5) (data : List Block) (begun : Bool) : NoWord.Statement (.requestArrival p header data begun) := nofun
theorem NoWord.portBlockComplete (p : Chan) (data : Block) (begun : Bool) : NoWord.Statement (.portBlockComplete p data begun) := nofun
theorem NoWord.messageSent (p : Chan) : NoWord.Statement (.messageSent p) := nofun
theorem NoWord.reportBlockComplete (c : Chan) : NoWord.Statement (.reportBlockComplete c) := nofun

end Sys2Proof.Laws
end

