-- ==== Sys2Proof/WellFormed.lean ====
section
/-! DEFINITION. Which commands the outside world can form. No meaning depends on it: every meaning is total. -/

namespace Sys2Proof

/-- An order of channels names each at most once (R114: each channel selects once). -/
abbrev orderWellFormed (order : List Chan) : Bool := decide order.Nodup

/-- The operands a command may carry: an order names no channel twice; a sweep block has at most four operations, so
at most four reads (R20). A request covers at most four blocks (R135), and the model counts a message with more data blocks
than that as one the world does not form: DESIGN CHOICE (log entry 25). R135 puts no bound on a wrong block count, and
`requestArrival` takes a message with any number of blocks, one with a wrong number as of an invalid kind. -/
def Instr.wellFormed : Instr → Bool
  | .resetAssertion => true
  | .resetRelease _ => true
  | .supplyGoodRise _ => true
  | .supplyGoodFall _ => true
  | .supplyWaitExpiry _ => true
  | .identitySample _ _ => true
  | .widthCheckOpComplete _ _ => true
  | .statusReadComplete _ => true
  | .statusPollExpiry => true
  | .descriptorByte _ order => orderWellFormed order
  | .descriptorCheck order => orderWellFormed order
  | .descriptorParse expired order => orderWellFormed expired && orderWellFormed order
  | .loadLimitExpiry order => orderWellFormed order
  | .budgetExpiry _ => true
  | .sweepOpsComplete _ reads => decide (reads.length ≤ 4)
  | .pauseExpiry _ => true
  | .shadowClaim _ => true
  | .analysisComplete _ => true
  | .noResponse _ => true
  | .requestArrival _ _ data _ => decide (data.length ≤ 4)
  | .portBlockComplete _ _ _ => true
  | .messageSent _ => true
  | .reportBlockComplete _ => true

end Sys2Proof
end

