-- ==== Sys2Proof/Tests/Slice0.lean ====
section
/-! SUPPORT. Tests on small states, expected values from the spec's tables and worked examples, and for every statement
with hypotheses a state and operands that meet them (theorem witness_<its name>). -/

namespace Sys2Proof.Tests

open Sys2Proof Sys2Proof.Machine

/- Kernel evaluations wait for each other: one at a time, so that no thread waits. -/
set_option Elab.async false

/-! ### Small states -/

/-- The next state of an outcome; the reset state where there is none. -/
def after (o : Host.Outcome State Fault Refusal) : State :=
  match o with
  | .next t => t
  | _ => State.reset

/-- The geometry of identity 0x1214 at full width (chapter 1, worked case). -/
def geo : Geometry := { banks := 8, rows := 32768, columns := 1024, spares := 16, width := .full }

/-- A sweep of bank 2 by the default march in element 3 (R1, W0, up) at row 100, block column 5 (chapter 2, worked
example). -/
def sweep : Sweep :=
  { march := defaultMarch, bank := 2, element := 3, pass := 1, row := 100, col := 5, passFailed := false, pause := none }

/-- The record of a failing row with a count (chapter 4, worked example). -/
def record (row : Nat) (columns : List Nat) (count : Nat) : FailRecord :=
  { bank := 2, row := row, columns := columns, many := false, lanes := 8, count := count, firstElement := 2,
    retention := false, status := .pending, target := none }

/-- The Fail Log at the start of the bank 2 analysis. -/
def bank2 : List FailRecord :=
  [record 100 [42, 45, 46, 900] 5, record 7 [300] 1, record 4000 [600, 601] 3, record 9000 [12, 700] 2]

/-- An analysis of bank 2 that waits for the claim of row 100, under cap 2. -/
def claim : Analysis :=
  { phase := .claiming, bank := 2, complete := false, t := 2, c := 8, repairMarginal := true, cap := 2,
    candidates := [100, 4000, 9000], given := [] }

def readReq : Request := { isWrite := false, tag := 4, lenCode := 0, addr := 1000, data := [] }
def writeReq : Request := { isWrite := true, tag := 3, lenCode := 0, addr := 1000, data := [7] }

/-- A read of one block in service, at memory. -/
def reading : Service := { slots := [none], remapped := false, shadow := false, outside := false, formed := false }

/-- An operation at the Downstream Sequencer. -/
def held (owner : OpOwner) (write : Option Block) : DsOp :=
  { owner := owner, write := write, bank := 2, row := 0, col := 0, layout := .full }

/-- Channel 1's sequencer in a state. -/
def seqIn (x : SeqState) : Sequencer :=
  { Sequencer.reset with
    state := x, identityRead := some 0x1214#16, width := some .full, nextBank := 2, timer := .running 800,
    ident := if x = .identifying then .widthCheck 4 (eightWords Config.widthPattern) else .idle,
    supplyWait := decide (x = .powering) }

/-- A channel in a state, with the work of that state and a read at its Downstream Sequencer. -/
def chanIn (x : SeqState) : Channel :=
  { Channel.reset true with
    seq := seqIn x, geometry := some geo,
    log := { records := if x = .analysing then bank2 else [], failedSpares := [] },
    march := if x = .testing then some sweep else none,
    analyser := if x = .analysing then some claim else none,
    ds := { Downstream.reset with
      ops := match x with
             | .testing => sweep.blockOps geo
             | .identifying => [{ widthOp 4 with owner := .widthCheck true }]
             | .opened | .draining => [held .port none]
             | _ => [held (.sweep false .r0) none] },
    port := if x = .opened ∨ x = .draining then
        { Port.reset with credit := 15, queue := [readReq], service := some reading }
      else Port.reset }

/-- A released part under strap word 0xFF (two slots, publish, pauses and escapes on), the loader ended
ABSENT, the shadow cap 2. -/
def base : State :=
  { State.reset with
    inReset := false, strap := 0xFF#8, loader := { Loader.reset with state := .absent },
    shadow := { Shadow.reset with cap := 2 } }

/-- The part with channel 1 in a state, the others in POWERING. -/
def sample (x : SeqState) : State :=
  { base with
    chans := (base.updChan 1 fun _ => chanIn x).chans,
    arbiter := { slots := 2, holders := if x = .testing then [1] else [], waitQueue := if x = .queued then [1] else [] } }

/-- Channel 1 in a state, with its port as given and nothing at its Downstream Sequencer. -/
def ported (x : SeqState) (p : Port) : State :=
  (sample x).updChan 1 fun ch => { ch with port := p, ds := Downstream.reset }

/-- A port whose head read has been answered. -/
def answered (more : List Request) : Port :=
  { Port.reset with queue := readReq :: more, service := some Service.answered,
                    outbound := [.response 4 0 (Status.mk 1 false false false false false) [0]] }

/-- The part while the loader is loading. -/
def loading (x : SeqState) (stage : LoadStage) (buffer : List Byte) : State :=
  { sample x with loader := { Loader.reset with
      state := .loading, stage := some stage, limitTimer := true, selected := true, buffer := buffer } }

/-- The report in progress on channel 1. -/
def report (at_ : BlockAt) (index : Nat) : Writer :=
  { write := some { chan := 1, base := 0, blocks := [1, 2], index := index, blockAt := at_, startSet := [1] },
    pendingPublish := false }

/-! ### Commands the world cannot form -/

theorem test_wellFormed_byte_order : (Instr.descriptorByte 0 [1, 1]).wellFormed = false := by decide
theorem test_wellFormed_check_order : (Instr.descriptorCheck [0, 0]).wellFormed = false := by decide
theorem test_wellFormed_parse_expired : (Instr.descriptorParse [2, 2] []).wellFormed = false := by decide
theorem test_wellFormed_parse_order : (Instr.descriptorParse [] [3, 3]).wellFormed = false := by decide
theorem test_wellFormed_limit_order : (Instr.loadLimitExpiry [1, 0, 1]).wellFormed = false := by decide
theorem test_wellFormed_five_reads : (Instr.sweepOpsComplete 0 [0, 0, 0, 0, 0]).wellFormed = false := by decide
theorem test_wellFormed_five_blocks : (Instr.requestArrival 0 #v[0, 0, 0, 0, 0] [0, 0, 0, 0, 0] false).wellFormed = false := by decide
theorem test_wellFormed_accepts : (Instr.descriptorParse [2] [1, 0, 3, 2]).wellFormed = true := by decide

/-! ### Layouts and geometry (chapters 1 and 11, worked cases) -/

theorem test_identity_geometry : decodeIdentity 0x1214#16 .full = some geo ∧ geo.visibleBlocks = 33538048 ∧
    geo.escapeBlock = 33538047 ∧ geo.spareRow 3 = 32755 := by decide +kernel

theorem test_identity_undecodable : decodeIdentity 0x3214#16 .full = none ∧ decodeIdentity 0x1219#16 .full = none := by
  decide +kernel

theorem test_escape_block_decomposes : geo.blockCol 33538047 = 127 ∧ geo.bankOf 33538047 = 7 ∧
    geo.rowOf 33538047 = 32751 := by decide +kernel

theorem test_block_beyond_escape_is_outside : geo.dest [] 33538048 = .outside := by decide +kernel

theorem test_byte_address_lands_in_spare :
    geo.dest [{ bank := 6, row := 15258, target := .spare 3 }] 15625000 = .spare 6 32755 40 := by decide +kernel

/-- The header bytes of chapter 11's worked read, in the order received. -/
def readHeader : Vector Byte 5 := #v[0x40, 0x40, 0x1F, 0x00, 0x00]

theorem test_header_of_read : parseMessage readHeader [] = some readReq := by decide +kernel

theorem test_header_of_write :
    parseMessage #v[0x31, 0x42, 0x1F, 0x00, 0x80] [1, 2] = some { writeReq with lenCode := 1, data := [1, 2] } := by
  decide +kernel

theorem test_header_parity : parseMessage #v[0x41, 0x40, 0x1F, 0x00, 0x00] [] = none := by decide +kernel

theorem test_status_byte : (Status.mk 1 true false false false false).byte = 0x05#8 := by decide

theorem test_elements : defaultMarch[1]? = some { decodeElement [0x06, 0x22, 0x01, 0x00] 0 with ops := [.r0, .w1] } ∧
    defaultMarch[4]? = some { decodeElement [0x03, 0x2A, 0x41, 0x00] 0 with ops := [.r1, .w0] } := by decide +kernel

theorem test_header_check_byte :
    ({ base with loader := { Loader.reset with state := .valid, kept := { Kept.nothing with revision := 3 } } } :
      State).headerRecord.getLast? = some 0xF5#8 := by decide +kernel

theorem test_message_bytes : (Message.grant 3).bytes = [1, 3] ∧ (Message.restore 16).bytes = [2, 16] ∧
    ((Message.response 4 0 (Status.mk 1 true false false false false) [0]).bytes.take 3) = [3, 4, 5] := by decide +kernel

/-! ### Fail Log and analysis (chapters 3 and 4, worked examples) -/

theorem test_log_merges_columns :
    (mergeColumns [42, 45] false [42, 45, 46]).1 = [42, 45, 46] ∧ mergeColumns [42, 45, 46, 900] false [7] =
      ([42, 45, 46, 900], true) := by decide

theorem test_bank2_analysis_spares :
    let ch := ({ chanIn .analysing with
      seq := { seqIn .analysing with profile := some (0, { identity := 0x1214#16, minLevel := 1, tCode := 1, cCode := 3,
                                                           repairMarginal := true, elements := defaultMarch }) },
      log := { records := bank2, failedSpares := [(2, 0), (2, 5)] } } : Channel).beginAnalysis 2 true 32
    ch.remap = [⟨2, 100, .spare 1⟩, ⟨2, 4000, .spare 2⟩, ⟨2, 9000, .spare 3⟩, ⟨2, 7, .spare 4⟩] := by decide +kernel

/-! ### One step of each command -/

theorem test_resetAssertion : (after (exec .resetAssertion (sample .opened))).chan 1 = Channel.reset true := by
  decide +kernel

theorem test_resetRelease : (after (exec (.resetRelease 0xFF#8) State.reset)).arbiter.slots = 2 ∧
    ((after (exec (.resetRelease 0xFF#8) State.reset)).chan 3).seq.timer = .running 800 := by decide +kernel

theorem test_supplyGoodRise : (after (exec (.supplyGoodRise 1) (sample .powering))).seqState 1 = .identifying := by
  decide +kernel

theorem test_supplyGoodFall : ((after (exec (.supplyGoodFall 1) (ported .opened Port.reset))).chan 1).seq.reason =
    .supplyLost ∧ (after (exec (.supplyGoodFall 1) (ported .opened Port.reset))).seqState 1 = .failed := by decide +kernel

theorem test_supplyWaitExpiry :
    ((after (exec (.supplyWaitExpiry 1) (sample .powering))).chan 1).seq.supplyUnconfirmed = true := by decide +kernel

theorem test_identitySample : ((after (exec (.identitySample 1 4#4) ((sample .identifying).updSeq 1 fun q =>
    { q with ident := .reading 3 1 (some 4#4) [1#4, 2#4, 1#4] }))).chan 1).seq.identityRead = some 0x1214#16 := by
  decide +kernel

theorem test_identitySample_unstable : ((after (exec (.identitySample 1 5#4) ((sample .identifying).updSeq 1 fun q =>
    { q with ident := .reading 0 3 (some 4#4) [] }))).chan 1).seq.reason = .identityUnstable := by decide +kernel

theorem test_widthCheckOpComplete : ((after (exec (.widthCheckOpComplete 1 (eightWords 0xAAAAAAAA55555555#64))
    (sample .identifying))).chan 1).seq.width = some .full := by decide +kernel

theorem test_widthCheckOpComplete_half : judgeWidth (eightWords 0xFFFFFFFFAAAAAAAA#64) (eightWords 0xFFFFFFFF55555555#64) =
    some .half := by decide +kernel

theorem test_statusReadComplete :
    (after (exec (.statusReadComplete 0x01#8) (loading .selecting .statusRead []))).loader.stage = some .statusWait ∧
    (after (exec (.statusReadComplete 0xFF#8) (loading .selecting .statusRead []))).loader.stage = some .imageRead := by
  decide +kernel

theorem test_statusPollExpiry :
    (after (exec .statusPollExpiry (loading .selecting .statusWait []))).loader.sent = [0x05#8] := by decide +kernel

theorem test_descriptorByte :
    (after (exec (.descriptorByte 0x3D#8 []) (loading .selecting .imageRead [0xA5#8]))).loader.state = .absent := by
  decide +kernel

theorem test_descriptorCheck :
    (after (exec (.descriptorCheck []) (loading .selecting .check [0xA5#8, 0x3C#8, 16, 0, 0, 0]))).loader.state = .bad := by
  decide +kernel

/-- The image of chapter 8's worked example: 110 bytes, the third profile overrunning the end. -/
def image : List Byte :=
  [0xA5, 0x3C, 110, 0, 132, 4, 3, 0, 3, 3, 7, 2, 0, 1, 0, 0] ++ [6, 0, 1, 0, 120, 0] ++ [5, 0, 2, 0, 40] ++
  [8, 0, 7, 0, 1, 2, 3, 4] ++ [0, 0] ++ [1, 2, 0x14, 0x12] ++ [2, 5, 0, 0] ++ [2, 3, 0, 0] ++
  [33, 0, 0x14, 0x12, 1, 1, 3, 1, 6] ++ (List.replicate 6 [0x06, 0x22, 0x01, 0x00]).flatten ++
  [17, 0, 0x14, 0x12, 1, 1, 3, 1, 2, 0x06, 0x22, 0x01, 0x00, 0x06, 0x25, 0x01, 0x00] ++
  [25, 0, 0x14, 0x12, 1, 1, 3, 1, 4, 0, 0]

theorem test_descriptorParse :
    let t := after (exec (.descriptorParse [] []) (loading .selecting .parse image))
    t.loader.state = .truncated ∧ t.loader.kept.overrides = [.aliasId 2 0x1214#16, .skipTest 3] ∧
    t.loader.kept.profiles.length = 1 ∧ t.shadow.cap = 32 ∧ (t.chan 1).seq.timer = .running 1200 := by decide +kernel

theorem test_loadLimitExpiry :
    (after (exec (.loadLimitExpiry []) (loading .selecting .imageRead []))).seqState 1 = .testing := by decide +kernel

theorem test_budgetExpiry : ((after (exec (.budgetExpiry 1) (sample .powering))).chan 1).seq.reason = .notReady := by
  decide +kernel

theorem test_budgetExpiry_testing :
    ((after (exec (.budgetExpiry 1) (sample .testing))).chan 1).analyser.map Analysis.complete = some false := by
  decide +kernel

/-- What the read of chapter 2's worked example returns: all as expected but lane 17 of column 42 and lane 3 of 45. -/
def badRead : Block :=
  patternBlock .full .checker 100 5 true ^^^ BitVec.ofNat 512 (2 ^ (64 * 2 + 17) + 2 ^ (64 * 5 + 3))

theorem test_sweepOpsComplete :
    let t := after (exec (.sweepOpsComplete 1 [badRead]) (sample .testing))
    ((t.chan 1).log.records.map fun r => (r.row, r.columns, r.lanes, r.firstElement)) =
      [(100, [42, 45], BitVec.ofNat 64 (2 ^ 3 + 2 ^ 17), 3)] ∧
    (t.chan 1).march = some { sweep with col := 6, passFailed := true } := by decide +kernel

theorem test_pauseExpiry :
    let m := { sweep with element := 5, row := 0, col := 0, pause := some 32 }
    (((after (exec (.pauseExpiry 1) ((sample .testing).setMarch 1 (some m)))).chan 1).march.map Sweep.element) = some 6 := by
  decide +kernel

theorem test_shadowClaim :
    let t := after (exec (.shadowClaim 1) (sample .analysing))
    (t.chan 1).remap = [⟨2, 100, .shadow 0⟩] ∧ (t.chan 1).analyser = some { claim with candidates := [4000, 9000] } := by
  decide +kernel

theorem test_analysisComplete :
    (after (exec (.analysisComplete 1) ((sample .analysing).setAnalyser 1
      (some { claim with phase := .marginal, candidates := [] })))).arbiter.holders = [1] := by decide +kernel

theorem test_noResponse :
    let t := after (exec (.noResponse 1) (sample .opened))
    t.seqState 1 = .closing ∧ (t.chan 1).port.outbound =
      [.response 4 0 { phase := 3, rejected := false, range := false, remapped := false, shadow := false, error := true }
        [0]] := by decide +kernel

theorem test_requestArrival :
    let t := after (exec (.requestArrival 1 #v[0x41, 0x40, 0x1F, 0x00, 0x00] [] false) (sample .opened))
    (t.chan 1).port.credit = 15 ∧ (t.chan 1).port.rejectedCount = 1 ∧ (t.chan 1).port.outbound = [.grant 1] := by
  decide +kernel

theorem test_portBlockComplete :
    let t := after (exec (.portBlockComplete 1 9 false) (sample .opened))
    (t.chan 1).port.outbound =
      [.response 4 0 { phase := 1, rejected := false, range := false, remapped := false, shadow := false, error := false }
        [9]] := by decide +kernel

theorem test_messageSent :
    let s := after (exec (.portBlockComplete 1 9 false) (sample .opened))
    ((after (exec (.messageSent 1) s)).chan 1).port.credit = 16 := by decide +kernel

theorem test_reportBlockComplete :
    let s := { ported .done Port.reset with writer := report .settled 1 }
    (after (exec (.reportBlockComplete 1) s)).seqState 1 = .opened := by decide +kernel

/-- The two orders of R86: the block at the store is served first, or the retest's freeing discards it. -/
theorem test_report_block_served :
    let s := { ported .draining (answered []) with writer := report (.store 3 1) 1 }
    shadowRead (after (exec (.reportBlockComplete 1) s)).shadow.store (3 * 16384 + 64) = 2 ∧
    shadowRead (after (exec (.messageSent 1) s)).shadow.store (3 * 16384 + 64) = 0 ∧
    (after (exec (.messageSent 1) s)).writer.write = none := by decide +kernel

/-! ### Witnesses: states and operands that meet the hypotheses of each statement -/

/-- The states of the Channel Sequencer. -/
def allStates : List SeqState :=
  [.powering, .identifying, .selecting, .queued, .testing, .analysing, .done, .opened, .draining, .closing, .failed,
   .absent]

theorem sample_sequencerLaw : ∀ x ∈ allStates, SequencerLaw (sample x) := by
  unfold SequencerLaw HeldLaw; decide +kernel

theorem sample_writerLaw (x : SeqState) : WriterLaw (sample x) := fun _ h => nomatch h

theorem sample_in_state : ∀ x ∈ allStates, (sample x).seqState 1 = x ∧ ((sample x).chan 1).supplyGood = true ∧
    ((sample x).chan 1).seq.timer = .running 800 := by decide +kernel

theorem witness_ResetReleaseStarts : HeldLaw (State.reset.setSupply 1 true) ∧
    (State.reset.setSupply 1 true).inReset = true ∧ ((State.reset.setSupply 1 true).chan 1).supplyGood = true ∧
    ((State.reset.setSupply 1 true).chan 2).supplyGood = false ∧ (0xFF#8).extractLsb' 0 2 = 3#2 ∧
    (0xFE#8).extractLsb' 0 2 = 2#2 ∧ (0xFD#8).extractLsb' 0 2 = 1#2 ∧ (0xFC#8).extractLsb' 0 2 = 0#2 ∧
    (0xFB#8).getLsbD 2 = false ∧ (0xFF#8).getLsbD 2 = true := by unfold HeldLaw; decide +kernel

theorem witness_SupplyWaitEnds : (sample .powering).seqState 1 = .powering ∧
    ((sample .powering).chan 1).seq.supplyWait = true ∧ ¬(State.reset.seqState 1 = .powering ∧
      (State.reset.chan 1).seq.supplyWait = true) ∧
    ∀ x ∈ [SeqState.powering, .closing, .failed, .absent], (sample x).seqState 1 = x := by decide +kernel

theorem witness_LossBeforeOpening : ∀ x ∈ [SeqState.identifying, .selecting, .queued, .testing, .analysing, .done],
    SequencerLaw (sample x) ∧ (sample x).seqState 1 = x ∧ ((sample x).chan 1).supplyGood = true ∧
    ∃ op ∈ ((sample x).chan 1).ds.ops, op.write = none := by unfold SequencerLaw HeldLaw; decide +kernel

/-- Channel 1 in TESTING while channel 2 waits for its slot. -/
def slotAwaited : State :=
  let s := (sample .testing).updChan 2 fun ch => { ch with geometry := some geo, seq := { ch.seq with state := .queued } }
  { s with arbiter := { s.arbiter with waitQueue := [2] } }

theorem witness_LossBeforeOpening_writer : (∀ x, WriterLaw (sample x)) ∧ WriterLaw slotAwaited ∧
    SequencerLaw slotAwaited ∧ slotAwaited.seqState 1 = .testing ∧ (slotAwaited.chan 1).supplyGood = true ∧
    slotAwaited.arbiter.waitQueue.head? = some 2 ∧ (slotAwaited.chan 2).geometry = some geo :=
  ⟨sample_writerLaw, (fun _ h => nomatch h), by unfold SequencerLaw HeldLaw; decide +kernel⟩

theorem witness_LossWhileOpen : ∀ x ∈ [SeqState.opened, .draining],
    (sample x).seqState 1 = x ∧ ((sample x).chan 1).port.responseFormed = false ∧ ((sample x).chan 1).supplyGood = true ∧
    (∃ op ∈ ((sample x).chan 1).ds.ops, op.write = none) ∧
    (closingQueue ((sample x).chan 1).port).head? = some readReq ∧
    closingQueue ((ported x Port.reset).chan 1).port = [] := by decide +kernel

theorem witness_LossWhileOpen_formed : ((ported .opened (answered [writeReq])).chan 1).port.responseFormed = true ∧
    ((ported .opened (answered [writeReq])).chan 1).port.queue = readReq :: [writeReq] ∧ readReq.isWrite = false ∧
    (ported .opened (answered [writeReq])).seqState 1 = .opened := by decide +kernel

theorem witness_NoResponseAfterLoss : ∀ x ∈ [SeqState.closing, .failed, .absent],
    (sample x).seqState 1 = x ∧ ∃ op ∈ ((sample x).chan 1).ds.ops, op.write = none := by decide +kernel

/-- Channel 1 reading its identity. -/
def identity (select attempt : Nat) (first : Option (BitVec 4)) (ns : List (BitVec 4)) : State :=
  (sample .identifying).updSeq 1 fun q => { q with ident := .reading select attempt first ns }

theorem witness_IdentityRead :
    ((identity 0 1 none []).chan 1).seq.ident = .reading 0 1 none [] ∧
    (∀ a ∈ [1, 2, 3], ((identity 0 a (some 4#4) []).chan 1).seq.ident = .reading 0 a (some 4#4) []) ∧ 4#4 ≠ 5#4 ∧
    ((identity 2 1 (some 4#4) [1#4, 2#4]).chan 1).seq.ident = .reading 2 1 (some 4#4) [1#4, 2#4] ∧
    ((identity 3 1 (some 4#4) [1#4, 2#4, 1#4]).chan 1).seq.ident = .reading 3 1 (some 4#4) [1#4, 2#4, 1#4] ∧
    ((identity 3 1 (some 15#4) [15#4, 15#4, 15#4]).chan 1).seq.ident = .reading 3 1 (some 15#4) [15#4, 15#4, 15#4] ∧
    (1#4 ++ 2#4 ++ 1#4 ++ 4#4 : BitVec 16) ≠ 0xFFFF#16 ∧ (15#4 ++ 15#4 ++ 15#4 ++ 15#4 : BitVec 16) = 0xFFFF#16 := by
  decide +kernel

theorem witness_IdentityRead_laws :
    (SequencerLaw (identity 2 3 (some 4#4) [1#4, 2#4]) ∧ SequencerLaw (identity 3 1 (some 15#4) [15#4, 15#4, 15#4])) ∧
    WriterLaw (identity 2 3 (some 4#4) [1#4, 2#4]) ∧ WriterLaw (identity 3 1 (some 15#4) [15#4, 15#4, 15#4]) :=
  ⟨⟨by unfold SequencerLaw HeldLaw; decide +kernel, by unfold SequencerLaw HeldLaw; decide +kernel⟩,
    (fun _ h => nomatch h), (fun _ h => nomatch h)⟩

/-- Channel 1 with width-check operation `n` at its Downstream Sequencer. -/
def width (n : Nat) (live : Bool) : State :=
  ((sample .identifying).updSeq 1 fun q => { q with ident := .widthCheck n (eightWords Config.widthPattern) }).updDs 1
    fun d => { d with ops := [{ widthOp n with owner := .widthCheck live }] }

theorem witness_WidthCheckOperations :
    (∀ n ∈ [1, 2, 3], ((width n true).chan 1).ds.ops.head?.map DsOp.owner = some (.widthCheck true) ∧
      ((width n true).chan 1).seq.ident = .widthCheck n (eightWords Config.widthPattern)) ∧
    ((width 2 false).chan 1).ds.ops.head?.map DsOp.owner = some (.widthCheck false) := by decide +kernel

theorem witness_WidthJudgement :
    (∀ j < 8, ∀ L < 64, (eightWords 0x55555555AAAAAAAA#64).getLsbD (64 * j + L) = (0x55555555AAAAAAAA#64).getLsbD L ∧
      (eightWords 0xAAAAAAAA55555555#64).getLsbD (64 * j + L) = (0xAAAAAAAA55555555#64).getLsbD L) ∧
    (∀ j < 8, ∀ L < 32, (eightWords 0xFFFFFFFFAAAAAAAA#64).getLsbD (64 * j + L) = (0x55555555AAAAAAAA#64).getLsbD L ∧
      (eightWords 0xFFFFFFFF55555555#64).getLsbD (64 * j + L) = (0xAAAAAAAA55555555#64).getLsbD L) ∧
    (∀ j < 8, ∀ L < 64, 32 ≤ L → (eightWords 0xFFFFFFFFAAAAAAAA#64).getLsbD (64 * j + L) = true ∧
      (eightWords 0xFFFFFFFF55555555#64).getLsbD (64 * j + L) = true) ∧
    (eightWords 0).getLsbD 63 ≠ true ∧ (eightWords 0).getLsbD 0 = (0x55555555AAAAAAAA#64).getLsbD 0 ∧
    (eightWords 0).getLsbD 1 ≠ (0x55555555AAAAAAAA#64).getLsbD 1 := by decide +kernel

theorem witness_WidthCheckEnds :
    ((width 4 true).chan 1).ds.ops = [{ widthOp 4 with owner := .widthCheck true }] ∧ (widthOp 4).write = none ∧
    ((width 4 true).chan 1).seq.ident = .widthCheck 4 (eightWords Config.widthPattern) ∧
    judgeWidth (eightWords Config.widthPattern) 0 = none ∧
    judgeWidth (eightWords Config.widthPattern) (eightWords Config.widthComplement) = some .full ∧
    (loading .identifying .imageRead []).loader.state = .loading := by decide +kernel

theorem witness_WidthCheckEnds_laws : SequencerLaw (width 4 true) ∧ WriterLaw (width 4 true) :=
  ⟨by unfold SequencerLaw HeldLaw; decide +kernel, fun _ h => nomatch h⟩

theorem witness_SelectionAfterWidthCheck : SequencerLaw (sample .identifying) ∧ WriterLaw (sample .identifying) ∧
    (sample .identifying).loader.state ≠ .loading ∧ ((sample .identifying).chan 1).seq.identityRead = some 0x1214#16 ∧
    ((sample .identifying).chan 1).ds.ops = [{ widthOp 4 with owner := .widthCheck true }] ∧
    ((sample .identifying).chan 1).seq.ident = .widthCheck 4 (eightWords Config.widthPattern) ∧
    judgeWidth (eightWords Config.widthPattern) (eightWords Config.widthComplement) = some .full ∧
    decodeIdentity 0x1214#16 .full = some geo ∧ decodeIdentity 0x7777#16 .full = none ∧
    strapSlotCode (sample .identifying).strap ≠ 0 ∧ (sample .identifying).loader.skips 1 = false ∧
    strapSlotCode 0xFC#8 = 0 ∧ strapPublish 0xDF#8 = false ∧ strapPublish 0xFF#8 = true ∧ Loader.skips { Loader.reset with
      state := .valid, kept := { Kept.nothing with overrides := [.skipTest 1] } } 1 = true ∧
    (sample .identifying).arbiter.holders.length < (sample .identifying).arbiter.slots :=
  ⟨sample_sequencerLaw _ (by decide), sample_writerLaw _, by decide +kernel⟩

theorem witness_LoaderReadsImage :
    (loading .selecting .statusRead []).loader.state = .loading ∧ (0x02#8).getLsbD 0 = false ∧
    (0x01#8).getLsbD 0 = true ∧ 0x01#8 ≠ 0xFF#8 ∧
    (loading .selecting .statusWait []).loader.stage = some .statusWait ∧
    u16 ([0xA5#8, 0x3C#8, 16] ++ [0]) 2 = 16 ∧ u16 ([0xA5#8, 0x3C#8, 0] ++ [8]) 2 = 2048 ∧
    (image.dropLast ++ [0]).length = u16 (image.dropLast ++ [0]) 2 ∧
    (byteSum ((loading .selecting .check image).loader.buffer.take 4) +
      byteSum ((loading .selecting .check image).loader.buffer.drop 6)) % 65536 =
      u16 (loading .selecting .check image).loader.buffer 4 := by decide +kernel

theorem witness_LoadEnds :
    ([0xA5#8] ++ [0x3D#8]).length = 2 ∧ [0xA5#8] ++ [0x3D#8] ≠ [0xA5#8, 0x3C#8] ∧
    u16 ([0xA5#8, 0x3C#8, 15] ++ [0]) 2 < 16 ∧ 2048 < u16 ([0xA5#8, 0x3C#8, 1] ++ [8]) 2 ∧
    (byteSum ((image.set 4 0).take 4) + byteSum ((image.set 4 0).drop 6)) % 65536 ≠ u16 (image.set 4 0) 4 ∧
    (loading .selecting .parse image).loader.limitTimer = true ∧ (loading .selecting .parse image).loader.stage = some .parse ∧
    (loading .selecting .parse image).seqState 1 = .selecting ∧
    ((loading .selecting .parse image).chan 1).seq.width = some .full ∧
    (∀ x ∈ [SeqState.powering, .identifying, .selecting, .done],
      ∀ c ∈ [(1 : Chan)], (loading x .parse image).seqState c ∉ [SeqState.queued, .testing, .analysing]) := by
  decide +kernel

/-- The budget extension of the image settles 1200 ms for the timer of channel 1, and the world takes its expiry first. -/
theorem witness_LoadEnds_expired :
    ExpiresAtLoad (loading .selecting .parse image) .truncated (parseImage image).1 [1] 1 :=
  ⟨by decide, 1200, by decide +kernel⟩

/-- Images at the boundaries of parsing: no extension fits; the overrides end where the image does; one override more than
fits; a profile of 9 bytes, dropped; one profile more than fits. -/
theorem witness_ParsedResults :
    let head (profiles overrides : Byte) : List Byte :=
      [0xA5, 0x3C, 0, 0, 0, 0, 3, 0, profiles, overrides, 7, 2, 0, 1, 0, 0]
    (parseImage (head 0 0)).2 = false ∧ (parseImage (head 0 0 ++ [3, 0])).2 = false ∧
    (parseImage (head 0 0 ++ [0, 0])).2 = true ∧
    parseImage (head 0 1 ++ [0, 0, 2, 3, 0, 0]) =
      ({ (headerFields (head 0 1)) with overrides := [.skipTest 3] }, true) ∧
    (parseImage (head 0 2 ++ [0, 0, 2, 3, 0, 0])).2 = false ∧
    parseImage (head 1 0 ++ [0, 0, 9, 0, 0, 0, 0, 0, 0, 0, 0]) = (headerFields (head 1 0), true) ∧
    (parseImage (head 2 0 ++ [0, 0, 9, 0, 0, 0, 0, 0, 0, 0, 0])).2 = false ∧
    ((parseImage image).1.budgetExt, (parseImage image).1.capExt, (parseImage image).1.profiles.length) =
      (some 120, some 32, 1) := by decide +kernel

theorem witness_ElementRoundTrip : 7 < 8 ∧ 15 < 16 := by decide

theorem witness_BudgetExpiryWithoutEffect :
    (∀ x ∈ [SeqState.done, .opened, .draining, .closing, .failed, .absent, .analysing],
      ((sample x).chan 1).seq.timer = .running 800 ∧ (sample x).seqState 1 = x) ∧
    ∀ ms, (State.reset.chan 1).seq.timer ≠ .running ms := ⟨by decide +kernel, by simp [Channel.reset, Sequencer.reset]⟩

theorem witness_BudgetExpiryBeforeTesting :
    (∀ x ∈ [SeqState.powering, .identifying, .selecting], (SequencerLaw (sample x) ∧ WriterLaw (sample x)) ∧
      (sample x).seqState 1 = x ∧ ((sample x).chan 1).seq.timer = .running 800) ∧
    ((sample .selecting).chan 1).seq.identityRead = some 0x1214#16 ∧ ((sample .selecting).chan 1).seq.width = some .full ∧
    decodeIdentity 0x1214#16 .full = some geo ∧ decodeIdentity 0x7777#16 .full = none := by
  refine ⟨fun x hx => ⟨⟨sample_sequencerLaw x ?_, sample_writerLaw x⟩, ?_⟩, by decide +kernel⟩ <;> revert x <;>
    decide +kernel

theorem witness_BudgetExpiryInQueued : SequencerLaw (sample .queued) ∧ WriterLaw (sample .queued) ∧
    ((sample .queued).chan 1).seq.timer = .running 800 ∧ (sample .queued).seqState 1 = .queued :=
  ⟨sample_sequencerLaw _ (by decide), sample_writerLaw _, by decide +kernel, by decide +kernel⟩

theorem witness_BudgetExpiryInTesting : SequencerLaw (sample .testing) ∧
    ((sample .testing).chan 1).seq.timer = .running 800 ∧ (sample .testing).seqState 1 = .testing :=
  ⟨sample_sequencerLaw _ (by decide), by decide +kernel, by decide +kernel⟩

/-- An abandoned sweep's write and read stand ahead of the next sweep's operations, which a command for them leaves. -/
theorem witness_BudgetExpiryInTesting_abandoned :
    let ops := [held (.sweep false .w0) (some 7), held (.sweep false .r0) none]
    (∀ op ∈ ops, ∃ how, op.owner = .sweep false how) ∧ ops ≠ [] ∧
    (ops.filter fun op => op.write = none).length ≤ [(0 : Block)].length ∧
    (∀ op how, (sweep.blockOps geo).head? = some op → op.owner ≠ .sweep false how) ∧
    ((after (exec (.sweepOpsComplete 1 [0]) ((sample .testing).updDs 1 fun d =>
      { d with ops := ops ++ sweep.blockOps geo }))).chan 1).ds.ops = sweep.blockOps geo :=
  ⟨by simp [held], by decide, by decide +kernel, by
    intro op how h
    have e : (sweep.blockOps geo).head?.map DsOp.owner = some (.sweep true .r1) := by decide +kernel
    rw [h] at e
    have e' : op.owner = .sweep true .r1 := Option.some.inj e
    rw [e']; exact fun x => OpOwner.noConfusion x fun y _ => Bool.noConfusion y, by decide +kernel⟩

/-- A channel at the end of its testing. -/
def tested (overflow : Bool) (entered swept : List Nat) (recs : List FailRecord) : Channel :=
  { chanIn .analysing with
    seq := { seqIn .analysing with causes := ⟨false, false, overflow⟩, entered := entered, fullySwept := swept },
    log := { records := recs, failedSpares := [] } }

theorem witness_EndResultTable :
    (tested true [] [] []).seq.causes.overflow = true ∧ (tested false [0] [] []).seq.causes.any = false ∧
    (tested false [0] [] []).seq.entered ≠ [] ∧ ¬(∀ b < geo.banks, b ∈ (tested false [0] [0, 1, 2, 3, 4, 5, 6] []).seq.fullySwept) ∧
    (∀ b < geo.banks, b ∈ (tested false [0] [0, 1, 2, 3, 4, 5, 6, 7] bank2).seq.fullySwept) ∧
    (tested false [0] [] []).geometry = some geo ∧ bank2 ≠ [] := by decide +kernel

theorem witness_SweepBlockPasses :
    ((sample .testing).chan 1).march = some sweep ∧ ((sample .testing).chan 1).geometry = some geo ∧
    sweep.current = some (checkerElement false [.r1, .w0] 0) ∧ (checkerElement false [.r1, .w0] 0).applied ≠ [] ∧
    ((sample .testing).chan 1).ds.ops = sweep.blockOps geo ∧ walkNext geo false 100 5 = some (100, 6) := by decide +kernel

/-- The record of a completed write, and of an abandoned one, at the last byte of the block (R10). -/
theorem witness_SweepBlockPasses_record :
    let op := held .port (some 7)
    op.write ≠ none ∧ (held .port none).write = none ∧ memGet (dramLand op 7 []) (2 * 65536 * 2048 * 8) = some 7 ∧
    memGet (dramDoubt op (dramLand op 7 [])) (2 * 65536 * 2048 * 8 + 63) = none := by decide +kernel

theorem witness_WalkOrder : 0 < geo.rows ∧ 0 < geo.blocksPerRow ∧ 32767 < geo.rows ∧ 127 < geo.blocksPerRow ∧
    defaultMarch[0]? = some (checkerElement false [.w0] 0) ∧
    sweep.march[4 - 1]? = some (checkerElement true [.r0, .w1] 0) ∧
    ((sweep.beginPass geo 4 1).row, (sweep.beginPass geo 4 1).col) = (32767, 127) := by
  decide +kernel

theorem witness_CompareFindsFailures : 7 < Width.full.columnsPerBlock ∧ 15 < Width.half.columnsPerBlock ∧
    63 < Width.full.lanes ∧ 31 < Width.half.lanes ∧ Sequencer.reset.profile = none ∧
    sweep.current = some (checkerElement false [.r1, .w0] 0) ∧ afterPause 0xFF#8 defaultMarch 6 = true ∧
    ({ Sequencer.reset with profile := some (0, ⟨0x1214, 1, 1, 3, true, defaultMarch⟩) } : Sequencer).profile ≠ none := by
  decide +kernel

/-- A sweep in element 6 (R0, up) at a row and a block column, and the part with it and a Fail Log. -/
def sweep6 (row col : Nat) : Sweep := { sweep with element := 6, row := row, col := col }

def sweeping (m : Sweep) (records : List FailRecord) : State :=
  (sample .testing).updChan 1 fun ch =>
    { ch with march := some m, ds := { ch.ds with ops := m.blockOps geo }, log := { records := records, failedSpares := [] } }

theorem witness_SweepReadFails :
    (∀ reads ∈ [[badRead], expectedReads .full (checkerElement false [.r1, .w0] 0) 100 5],
      let s := sample .testing
      let e := checkerElement false [.r1, .w0] 0
      (s.chan 1).march = some sweep ∧ (s.chan 1).geometry = some geo ∧ sweep.current = some e ∧
      e.applied = [.r1, .w0] ∧ (s.chan 1).ds.ops = sweep.blockOps geo ∧ walkNext geo false 100 5 = some (100, 6) ∧
      reads.length = e.readCount ∧
      ((s.chan 1).log.takeAll geo.visibleRows (sweep.events geo e s.strap reads)).2 = false) ∧
    sweep.events geo (checkerElement false [.r1, .w0] 0) 0xFF#8 [badRead] ≠ [] := by decide +kernel

/-- A full log. -/
def fullLog : List FailRecord := (List.range 128).map fun i => { record i [1] 1 with bank := 0 }

theorem witness_SweepOverflow :
    let m := { sweep with row := 32751 }
    let s := sweeping m fullLog
    let e := checkerElement false [.r1, .w0] 0
    SequencerLaw s ∧ (s.chan 1).march = some m ∧ (s.chan 1).geometry = some geo ∧ m.current = some e ∧
    (s.chan 1).ds.ops = m.blockOps geo ∧ [badRead].length = e.readCount ∧ m.events geo e s.strap [badRead] ≠ [] ∧
    m.row < geo.visibleRows ∧ 128 ≤ (s.chan 1).log.records.length ∧
    (∀ r ∈ (s.chan 1).log.records, ¬(r.bank = 2 ∧ r.row = 32751)) := by
  unfold SequencerLaw HeldLaw; decide +kernel

/-- The sweep of the worked example at the last block of an up pass, in an element of its own. -/
def lastBlock (e : Element) (failed : Bool) (pass : Nat) : Sweep :=
  { sweep with march := [e], element := 1, row := 32767, col := 127, passFailed := failed, pass := pass }

theorem witness_SweepPassEnds :
    let settle : Element := { checkerElement false [.r0] 0 with repeatCode := 0 }
    let eight : Element := { checkerElement false [.r0] 0 with repeatCode := 8 }
    (∀ m ∈ [lastBlock settle true 7, lastBlock settle true 8, lastBlock eight false 7, lastBlock eight false 8,
        lastBlock (checkerElement false [.r0] 4) false 1, { sweep6 32767 127 with element := 4, row := 0, col := 0 }],
      SequencerLaw (sweeping m []) ∧ ((sweeping m []).chan 1).march = some m ∧
      ((sweeping m []).chan 1).geometry = some geo ∧ (m.current.map Element.applied).getD [] ≠ [] ∧
      ((sweeping m []).chan 1).ds.refreshWithheld = false ∧ ((sweeping m []).chan 1).ds.ops = m.blockOps geo ∧
      walkNext geo ((m.current.map Element.down).getD false) m.row m.col = none) ∧
    (lastBlock settle true 7).passAgain settle = true ∧ (lastBlock settle true 8).passAgain settle = false ∧
    (lastBlock eight false 7).passAgain eight = true ∧ (lastBlock eight false 8).passAgain eight = false ∧
    strapPauses base.strap = true ∧ 4 < defaultMarch.length ∧ [eight].length ≤ 1 := by
  unfold SequencerLaw HeldLaw; decide +kernel

theorem witness_SweepPassEnds_reads :
    let settle : Element := { checkerElement false [.r0] 0 with repeatCode := 0 }
    ∀ m ∈ [lastBlock settle false 7, lastBlock (checkerElement false [.r0] 4) false 1],
      (m.current.map Element.readCount).getD 0 = [badRead].length ∧
      m.events geo (m.current.getD settle) base.strap [badRead] ≠ [] ∧
      (((sweeping m []).chan 1).log.takeAll geo.visibleRows
        (m.events geo (m.current.getD settle) base.strap [badRead])).2 = false := by decide +kernel

theorem witness_PauseExpiryGoesOn : ∀ n ∈ [5, 6],
    let m : Sweep := { sweep with element := n, pause := some 32 }
    let s := (sample .testing).setMarch 1 (some m)
    SequencerLaw s ∧ (s.chan 1).march = some m ∧ (s.chan 1).geometry = some geo ∧
    (n = 5 → m.element < m.march.length) ∧ (n = 6 → m.march.length ≤ m.element) := by
  unfold SequencerLaw HeldLaw; decide +kernel

theorem witness_FailLogTakesEvent : geo.visibleRows ≤ 32752 ∧ 32751 < geo.visibleRows ∧
    (∃ r ∈ bank2, r.bank = 2 ∧ r.row = 100) ∧ ¬(∃ r ∈ bank2, r.bank = 2 ∧ r.row = 32751) ∧ bank2.length < 128 ∧
    128 ≤ fullLog.length ∧ [42, 45, 46, 900].length ≤ 4 ∧ [42, 46].Nodup := by decide +kernel

/-- Bank 2 under thresholds T = 2 and C = 8, all spares good but 0 and 5: every candidate takes a spare; with one spare in
all, good, one candidate is left; of a truncated bank all are. -/
theorem witness_CandidateOrderAndSpare :
    let ch (spares : Nat) : Channel := { chanIn .analysing with
      geometry := some { geo with spares := spares },
      seq := { seqIn .analysing with profile := some (0, ⟨0x1214, 1, 1, 3, true, defaultMarch⟩) } }
    ((ch 16).log.records.map fun r => (r.bank, r.row)).Nodup ∧
    (∀ r ∈ (ch 16).log.records, ∀ x ∈ r.columns,
      ¬(ch 16).seq.columnThreshold ≤ ((ch 16).log.records.filter fun r => x ∈ r.columns).length) ∧
    (ch 16).log.pendingOf 2 = bank2 ∧ (ch 16).seq.threshold = 2 ∧ (ch 16).spares = 16 ∧ (ch 1).spares = 1 ∧
    (((byCount bank2).filter fun r => 2 ≤ r.count).map FailRecord.row) = [100, 4000, 9000] ∧
    heldEntries (ch 16).remap = 0 ∧ ((ch 1).beginAnalysis 2 true 2).remap = [⟨2, 100, .spare 0⟩] ∧
    ((ch 1).beginAnalysis 2 true 2).analyser.map Analysis.candidates = some [4000, 9000] ∧
    ((ch 1).beginAnalysis 2 true 0).seq.causes.unrepairable = true := by decide +kernel

/-- Eight rows that list column 517 (chapter 4, worked example). -/
def faulty : Channel :=
  { chanIn .testing with
    log := { records := [11, 150, 302, 977, 1404, 2210, 5018, 7700].map fun row => record row [517] 1, failedSpares := [] } }

theorem witness_ColumnFaultedBank : (faulty.beginAnalysis 2 true 2).seq.causes.column = true ∧
    ((chanIn .analysing).beginAnalysis 2 true 2).seq.causes.column = false ∧ faulty.seq.profile = none ∧
    ({ faulty.seq with profile := some (0, ⟨0, 0, 16, 16, true, []⟩) } : Sequencer).columnThreshold = 32 ∧
    faulty.seq.columnThreshold ≤ (faulty.log.records.filter fun r => 517 ∈ r.columns).length := by decide +kernel

theorem witness_TruncatedAnalysisGivesNoSpare : ((chanIn .analysing).log.records.map fun r => (r.bank, r.row)).Nodup := by
  decide +kernel

theorem sample_logLaw : LogLaw (sample .analysing) := by unfold LogLaw; decide +kernel

theorem sample_repairLaw : RepairLaw (sample .analysing) := by
  intro c
  refine ⟨by revert c; decide +kernel, fun a ha _ => ?_⟩
  have key : ∀ c : Chan, ∀ b ∈ ((sample .analysing).chan c).analyser, b.candidates.Nodup ∧ ∀ row ∈ b.candidates,
      ∃ r ∈ ((sample .analysing).chan c).log.records, r.bank = b.bank ∧ r.row = row ∧ r.status = .pending := by
    decide +kernel
  exact key c a ha

theorem witness_ShadowClaimAnswered : (LogLaw (sample .analysing) ∧ RepairLaw (sample .analysing)) ∧
    ((sample .analysing).chan 1).analyser = some claim ∧ claim.phase = .claiming ∧
    claim.candidates = 100 :: [4000, 9000] ∧ (sample .analysing).shadow.holders[0] = none ∧
    (∀ e : Fin 32, ({ sample .analysing with shadow := { Shadow.reset with
      holders := Vector.replicate 32 (some 2) } } : State).shadow.holders[e] ≠ none) :=
  ⟨⟨sample_logLaw, sample_repairLaw⟩, by decide +kernel⟩

theorem witness_AnalysisCompleteGoesOn :
    (∀ b ∈ [2, 6, 7],
      let a : Analysis := { claim with phase := .marginal, candidates := [], bank := b }
      let s := (sample .analysing).setAnalyser 1 (some a)
      SequencerLaw s ∧ s.seqState 1 = .analysing ∧ (s.chan 1).analyser = some a ∧ a.phase ≠ .claiming ∧
      (s.chan 1).geometry = some geo ∧ (s.chan 1).seq.budgetExpired = false ∧ (b < 7 → b + 1 < geo.banks) ∧
      (b = 7 → geo.banks ≤ b + 1) ∧ s.arbiter.holders.length < s.arbiter.slots) ∧
    (WriterLaw (sample .analysing) ∧ strapPublish 0xDF#8 = false) := by
  refine ⟨?_, sample_writerLaw _, by decide +kernel⟩
  unfold SequencerLaw HeldLaw; decide +kernel

theorem witness_ArrivalDiscarded : State.reset.inReset = true ∧ (sample .opened).inReset = false ∧ (sample .closing).seqState 1 = .closing ∧
    (sample .opened).seqState 1 = .opened ∧ 0 < ((sample .opened).chan 1).port.credit ∧
    ((ported .opened Port.reset).chan 1).port.credit = 0 ∧ (sample .draining).seqState 1 = .draining ∧
    parseMessage #v[0x41, 0x40, 0x1F, 0x00, 0x00] [] = none := by decide +kernel

theorem witness_RequestHeaderRoundTrip :
    (((List.range 40).filter fun i => (0x00001F4040).testBit i).length % 2 = 1) ∧ 0x00001F4040 % 16 = 0 ∧
    readHeader[0].toNat + 256 * readHeader[1].toNat + 256 ^ 2 * readHeader[2].toNat = 0x00001F4040 ∧
    (((List.range 40).filter fun i => (0x80001F4231).testBit i).length % 2 = 1) ∧ 0x80001F4231 % 16 = 1 ∧
    0x80001F4231 / 512 % 4 + 1 = 2 ∧ 31 < 32 ∧ 3 < 4 ∧ 2 ^ 28 - 1 < 2 ^ 28 := by decide +kernel

theorem headWaits_reading : ((sample .opened).chan 1).port.headWaits :=
  ⟨readReq, [], reading, by decide +kernel, by decide +kernel, by decide⟩

theorem witness_ArrivalAccepted : ((sample .opened).chan 1).port.headWaits ∧ (sample .opened).inReset = false ∧
    (sample .opened).seqState 1 = .opened ∧ (sample .draining).seqState 1 = .draining ∧
    0 < ((sample .opened).chan 1).port.credit ∧ strapEscapes (sample .opened).strap = true ∧
    parseMessage readHeader [] = some readReq ∧ parseMessage #v[0x31, 0x40, 0x1F, 0x00, 0x00] [7] = some writeReq ∧
    (Detector.idle.see (((sample .opened).chan 1).isCandidate writeReq) (escapeWord writeReq)).2 = none :=
  ⟨headWaits_reading, by decide +kernel⟩

/-- A port with credit and an empty queue. -/
def fresh : Port := { Port.reset with credit := 16 }

/-- Channel 1 OPEN with a fresh port, the row of block 1000 as the table says: bank 7, row 0. -/
def openWith (remap : List RemapEntry) : State := (ported .opened fresh).setRemap 1 remap

theorem witness_ReadServed : (ported .opened fresh).inReset = false ∧ (ported .opened fresh).seqState 1 = .opened ∧
    (ported .draining fresh).seqState 1 = .draining ∧ 0 < fresh.credit ∧ fresh.queue = [] ∧ fresh.service = none ∧
    parseMessage readHeader [] = some readReq ∧
    none ∈ requestSlots [] ((openWith []).chan 1) readReq ∧
    none ∉ requestSlots [] ((openWith [⟨7, 0, .shadow 3⟩]).chan 1) readReq := by decide +kernel

/-- The header bytes of a write at an address, with a length code and a parity bit. -/
def writeHeader (parity lenCode addr : Nat) : Vector Byte 5 :=
  Vector.ofFn fun i : Fin 5 =>
    BitVec.ofNat 8 ((1 + 16 * 3 + 512 * lenCode + 2048 * addr + 2 ^ 39 * parity) / 256 ^ i.val)

theorem witness_SingleBlockWrite : (openWith []).inReset = false ∧ (openWith []).seqState 1 = .opened ∧
    0 < ((openWith []).chan 1).port.credit ∧ ((openWith []).chan 1).port.queue = [] ∧
    ((openWith []).chan 1).port.service = none ∧ parseMessage (writeHeader 0 0 1000) [7] = some writeReq ∧
    (parseMessage (writeHeader 0 3 1000) [7, 8, 9, 10]).map Request.data = some [7, 8, 9, 10] ∧
    writeReq.isWrite = true ∧ writeReq.lenCode = 0 ∧
    (Detector.idle.see (((openWith []).chan 1).isCandidate writeReq) (escapeWord writeReq)).2 = none ∧
    requestOps ((openWith []).chan 1) writeReq = [{ held .port (some 7) with bank := 7, col := 104 }] ∧
    (requestOps ((openWith [⟨7, 0, .shadow 3⟩]).chan 1) { writeReq with lenCode := 3, data := [7, 8, 9, 10] }) = [] ∧
    ((openWith [⟨7, 0, .shadow 3⟩]).chan 1).dest 1000 = .shadow 3 104 ∧
    (parseMessage (writeHeader 0 0 (2 ^ 28 - 1)) [7]).map Request.addr = some (2 ^ 28 - 1) ∧
    ((openWith []).chan 1).dest (2 ^ 28 - 1) = .outside ∧ (openWith []).writer.write = none := by decide +kernel

/-- Channel 1 OPEN or DRAINING with a request of one or two blocks at memory. -/
def inService (x : SeqState) (r : Request) (slots : List (Option Block)) (write : Option Block) : State :=
  (ported x { fresh with queue := [r], service := some { reading with slots := slots } }).updDs 1 fun d =>
    { d with ops := [held .port write] }

theorem witness_PortBlockCompletes :
    (∀ x ∈ [SeqState.opened, .draining], ∀ slots ∈ [[some 1, none, none], [some 1, none]],
      let s := inService x readReq slots none
      s.seqState 1 = x ∧ (s.chan 1).ds.ops = held .port none :: [] ∧ (s.chan 1).port.queue = [readReq] ∧
      (s.chan 1).port.service = some { reading with slots := [some 1] ++ none :: slots.drop 2 } ∧
      reading.formed = false ∧ none ∉ [some (1 : Block)]) ∧
    (inService .opened writeReq [none] (some 7)).seqState 1 = .opened ∧
    ((inService .opened writeReq [none] (some 7)).chan 1).port.queue = writeReq :: [] ∧ writeReq.isWrite = true ∧
    ((inService .opened writeReq [none] (some 7)).chan 1).port.service = some { reading with slots := [] ++ none :: [] } ∧
    (let s := { (inService .opened writeReq [none] (some 7)).updPort 1 fun p => { p with queue := [writeReq, readReq] }
               with writer := report .waiting 0 }
     (s.chan 1).port.queue = writeReq :: [readReq] ∧ s.seqState 1 = .opened ∧
     s.writer.write.map Write.blockAt = some .waiting ∧ readReq.isWrite = false) ∧
    (inService .opened writeReq [none] (some 7)).writer.write = none := by decide +kernel

theorem witness_MessageSentLeaves :
    let sent := Message.response 4 0 (Status.mk 1 false false false false false) [0]
    ((ported .opened { fresh with outbound := [.grant 1] }).chan 1).port.outbound = .grant 1 :: [] ∧
    (Message.grant 1).isResponse = false ∧ sent.isResponse = true ∧
    (ported .opened (answered [])).seqState 1 = .opened ∧ ((ported .opened (answered [])).chan 1).port.queue = [readReq] ∧
    ((ported .opened (answered [])).chan 1).port.outbound = sent :: [] ∧
    ((ported .opened (answered [])).chan 1).port.responseFormed = true ∧
    (ported .opened (answered [])).writer.write = none ∧
    ((ported .opened (answered [writeReq])).chan 1).port.queue = readReq :: [writeReq] ∧
    ({ ported .draining (answered [writeReq]) with writer := report .waiting 0 } : State).seqState 1 = .draining ∧
    (∀ more ∈ [[], [writeReq], [writeReq, readReq]],
      let s := ported .closing (answered more)
      s.seqState 1 = .closing ∧ (s.chan 1).port.queue = readReq :: more ∧ (s.chan 1).port.outbound = sent :: [] ∧
      (s.chan 1).port.responseFormed = true) ∧
    [writeReq].dropWhile Request.isWrite = [] ∧ [writeReq, readReq].dropWhile Request.isWrite = [readReq] := by
  decide +kernel

theorem witness_RetestBegins :
    let s := ported .draining (answered [])
    let w := inService .draining writeReq [none] (some 7)
    s.seqState 1 = .draining ∧ (s.chan 1).port.queue = [readReq] ∧ (s.chan 1).port.responseFormed = true ∧
    (s.chan 1).port.outbound.head?.map Message.isResponse = some true ∧
    w.seqState 1 = .draining ∧ (w.chan 1).port.queue = [writeReq] ∧ writeReq.isWrite = true ∧
    (w.chan 1).ds.ops = held .port (some 7) :: [] ∧
    (w.chan 1).port.service = some { reading with slots := [none] } := by decide +kernel

theorem witness_DetectorTable : (∀ i < 64, 16 ≤ i → (0xFFFFFFFFFFFF0001#64).getLsbD i = true) ∧
    (0xFFFFFFFFFFFF0001#64).toNat % 65536 = 1 ∧ (0xFFFFFFFFFFFF0004#64).toNat % 65536 = 4 ∧
    (0x7FFFFFFFFFFF0001#64).getLsbD 63 = false := by decide +kernel

/-- A write of a word to the escape block, and a port in STEP4 behind a read at memory, channel 2
OPEN as well. -/
def escape (w : Nat) : Request :=
  { isWrite := true, tag := 3, lenCode := 0, addr := 33538047, data := [BitVec.ofNat 512 (0xFFFFFFFFFFFF0000 + w)] }

def step4 : State :=
  ((sample .opened).updPort 1 fun p => { p with detector := .step4 }).updChan 2 fun _ => chanIn .opened

theorem witness_EscapeTaken : step4.inReset = false ∧ step4.seqState 1 = .opened ∧ strapEscapes step4.strap = true ∧
    0 < (step4.chan 1).port.credit ∧ (step4.chan 1).escapeBlock = some 33538047 ∧
    (step4.chan 1).port.detector = .step4 ∧
    (∀ w ∈ [0x0001, 0x0102, 0x0202, 0x0003, 0x0502, 0x0009],
      (∃ k ∈ [0, 1], parseMessage (writeHeader k 0 33538047) (escape w).data = some (escape w)) ∧
      (escape w).isWrite = true ∧ (escape w).lenCode = 0 ∧ escapeMarked (escapeWord (escape w)) = true ∧
      (escapeWord (escape w)).toNat % 256 = w % 256 ∧ (escapeWord (escape w)).toNat / 256 % 256 = w / 256) ∧
    step4.seqState 2 = .opened ∧ ((step4.updPort 2 fun _ => fresh).chan 2).port.queue = [] ∧
    step4.writer.write = none ∧ (0 : Chan) = step4.loader.kept.reportChannel ∧ ¬step4.seqState 0 = .opened ∧
    ¬step4.seqState 0 = .done ∧ strapPublish step4.strap = true ∧
    ({ step4 with writer := report .memory 0 } : State).writer.write ≠ none ∧
    (∀ d : Chan, 5 = d.val → step4.seqState d ≠ .opened) ∧
    ((step4.updPort 1 fun p => { p with queue := [], service := none }).chan 1).port.queue = [] := by decide +kernel

theorem witness_EscapeTaken_waits : (step4.chan 1).port.headWaits ∧ (step4.chan 2).port.headWaits ∧ Placed step4 1 :=
  ⟨⟨readReq, [], reading, by decide +kernel, by decide +kernel, by decide⟩,
    ⟨readReq, [], reading, by decide +kernel, by decide +kernel, by decide⟩, by unfold Placed; decide +kernel⟩

/-- Channel 1 in a state, the others ABSENT: no channel is testing. -/
def alone (x : SeqState) : State :=
  (((sample x).setSeqState 0 .absent).setSeqState 2 .absent).setSeqState 3 .absent

theorem witness_PublishStartsWrite : strapPublish (sample .done).strap = true ∧ (sample .done).writer.write = none ∧
    Placed (sample .done) 1 ∧ Placed (sample .opened) 1 ∧
    Placed { sample .done with loader := { Loader.reset with kept := { Kept.nothing with reportChannel := 1 } } } 1 ∧
    (∀ d, ¬Placed (sample .closing) d) := by
  unfold Placed; decide +kernel

theorem witness_PublishStartsWrite_due : (∀ d, (alone .done).seqState d ∉ testingStates) ∧
    (alone .done).seqState 1 = .done ∧ Placed (alone .done) 1 ∧ (alone .done).writer.write = none ∧
    (alone .done).writer.pendingPublish = false ∧ strapPublish (alone .done).strap = true ∧
    (∀ d, (alone .opened).seqState d ≠ .done) ∧ strapPublish 0xDF#8 = false := by
  unfold Placed; decide +kernel

/-- Channel 1 with a report block at memory. -/
def reporting (x : SeqState) (p : Port) (at_ : BlockAt) (index : Nat) : State :=
  { (ported x p).updDs 1 fun d => { d with ops := [held (.report true) (some 1)] } with writer := report at_ index }

theorem witness_ReportBlockCarried :
    (∀ p ∈ [Port.reset, answered []],
      let s := reporting .opened p .memory 0
      s.writer = report .memory 0 ∧ (report .memory 0).write.map Write.chan = some 1 ∧
      (s.chan 1).ds.ops = held (.report true) (some 1) :: [] ∧
      (report .memory 0).write.map (fun w => decide (w.index + 1 < w.blocks.length)) = some true) ∧
    (reporting .opened Port.reset (.store 3 1) 0).writer.write.map Write.blockAt = some (.store 3 1) ∧
    (reporting .opened Port.reset .settled 0).writer.write.map Write.blockAt = some .settled ∧
    Port.reset.queue = [] ∧ (answered []).queue ≠ [] ∧
    (portOp ((reporting .opened Port.reset .memory 0).chan 1) (some 2) (0 + (0 + 1))).isSome = true ∧
    (((reporting .opened Port.reset .memory 0).setRemap 1 [⟨0, 0, .shadow 3⟩]).chan 1).dest (0 + (0 + 1)) = .shadow 3 1 ∧
    ((reporting .opened Port.reset .memory 0).chan 1).dest (33538047 + (0 + 1)) = .outside := by decide +kernel

theorem witness_ReportBlockCarried_abandoned :
    let s := (sample .identifying).updDs 1 fun d => { d with ops := [held (.report false) (some 1), widthOp 1] }
    (s.chan 1).ds.ops = held (.report false) (some 1) :: [widthOp 1] ∧ s.writer.write = none := by decide +kernel

theorem witness_ReportBlockCarried_done : BlockDone (reporting .opened Port.reset .memory 0)
    ⟨1, 0, [1, 2], 0, .memory, [1]⟩ [] (dramLand (held (.report true) (some 1)) 1 [])
    { Shadow.reset with cap := 2 } :=
  .inl ⟨rfl, held (.report true) (some 1), 1, by decide +kernel⟩

theorem witness_ReportWriteEnds : (report .settled 1).write.map (fun w => decide (w.blocks.length ≤ w.index + 1)) = some true ∧
    ((reporting .done Port.reset .memory 1).chan 1).ds.ops = held (.report true) (some 1) :: [] ∧
    (reporting .done Port.reset .memory 1).seqState 1 = .done ∧
    (reporting .done Port.reset .settled 1).writer.pendingPublish = false ∧
    (∀ d, (reporting .done Port.reset .settled 1).seqState d = .done → d ∈ [(1 : Chan)]) := by decide +kernel

theorem witness_ReportWriteEnds_abandoned :
    (∀ x ∈ [SeqState.done, .opened, .draining],
      let s := (reporting x Port.reset .memory 0).updDs 1 fun d => { d with ops := held .port none :: d.ops }
      s.seqState 1 = x ∧ (s.chan 1).supplyGood = true ∧ (∃ op ∈ (s.chan 1).ds.ops, op.write = none) ∧
      s.writer = report .memory 0) ∧
    (let s := reporting .draining (answered []) .memory 0
     s.seqState 1 = .draining ∧ (s.chan 1).port.queue = [readReq] ∧ (s.chan 1).port.responseFormed = true ∧
     (s.chan 1).port.outbound.head?.map Message.isResponse = some true) := by decide +kernel

/-- Every channel is settled, or not every one. -/
theorem witness_PublishStartsWrite_settled :
    (∀ c, (allChans.foldl (fun s c => s.setSeqState c .failed) base).seqState c ∈ [SeqState.opened, .failed, .absent]) ∧
    ¬∀ c, (sample .opened).seqState c ∈ [SeqState.opened, .failed, .absent] := by decide +kernel

/-- A report block at the Shadow Row Store, and its data. -/
theorem witness_SingleBlockWrite_stored :
    ((report (.store 3 1) 0).write.map fun w => (w.chan, w.blockAt)) = some (1, .store 3 1) ∧
    ((report (.store 3 1) 0).write.bind fun w => w.blocks[w.index]?) = some 1 ∧
    (report .memory 0).write.map Write.blockAt = some .memory := by decide +kernel

theorem witness_RowBytes : decodeIdentity 0x0008#16 .half = some ⟨4, 8192, 512, 32, .half⟩ ∧
    decodeIdentity 0x2320#16 .full = some ⟨16, 65536, 2048, 0, .full⟩ ∧
    [4, 8, 16][(0x2328#16).toNat / 4096]? = some 16 ∧ [512, 1024, 2048][(0x2328#16).toNat / 16 % 16]? = some 2048 ∧
    (0x2328#16).toNat % 16 ≤ 8 ∧ 2 < (0x3000#16).toNat / 4096 ∧ 3 < (0x0400#16).toNat / 256 % 16 ∧
    2 < (0x0030#16).toNat / 16 % 16 ∧ 8 < (0x0009#16).toNat % 16 := by decide +kernel

theorem witness_RangeTest : decodeIdentity 0x1214#16 .full = some geo ∧ geo.rowOf 33538048 = geo.visibleRows ∧
    33538047 < geo.visibleBlocks ∧ 2 ^ 28 ≤ 2 ^ 28 := by decide +kernel

/-- The escape block with no entry for its row, with bank spare 15 and with shadow entry 31; and a channel without a
geometry. -/
theorem witness_RangeTest_dest :
    let key (x : Target) : RemapEntry := { bank := 7, row := 32751, target := x }
    33538047 < geo.visibleBlocks ∧ (geo.bankOf 33538047, geo.rowOf 33538047) = (7, 32751) ∧
    geo.dest [{ key (.spare 15) with bank := 6 }] 33538047 = .direct 7 32751 127 ∧
    geo.dest [key (.spare 15)] 33538047 = .spare 7 32767 127 ∧ geo.dest [key (.shadow 31)] 33538047 = .shadow 31 127 ∧
    (Channel.reset true).geometry = none ∧ (chanIn .opened).geometry = some geo := by decide +kernel

/-- A part in which an analysis waits for a claim, and the claim is next. -/
def claiming : State := { sample .analysing with pending := [.shadowClaim 1] }

theorem claiming_sequencerLaw : SequencerLaw claiming := by unfold SequencerLaw HeldLaw; decide +kernel

theorem claiming_logLaw : LogLaw claiming := by unfold LogLaw; decide +kernel

theorem claiming_steps : ∃ t, step claiming = .next t := ⟨_, rfl⟩

theorem claiming_repairLaw : RepairLaw claiming ∧ WriterLaw claiming := ⟨sample_repairLaw, sample_writerLaw _⟩

theorem claiming_visibleLaw : VisibleLaw claiming := by
  intro c
  refine ⟨fun r hr => ?_, by revert c; decide +kernel⟩
  have key : ∀ c : Chan, ∀ r ∈ (claiming.chan c).log.records, (claiming.chan c).geometry = some geo ∧
      r.row < geo.visibleRows := by decide +kernel
  exact ⟨geo, key c r hr⟩

theorem claiming_spareLaw : SpareLaw claiming := by
  intro c
  have key : ∀ c : Chan, (∀ m ∈ (claiming.chan c).march, m.bank = (claiming.chan c).seq.nextBank) ∧
      ∀ a ∈ (claiming.chan c).analyser, a.bank = (claiming.chan c).seq.nextBank ∧
        (∀ e ∈ (claiming.chan c).remap, e.bank ≤ a.bank) ∧
        ∀ x ∈ sparesOf (claiming.chan c).remap, x.1 = a.bank → x.2 ∈ a.given := by decide +kernel
  refine ⟨?_, ?_, ?_, (key c).1, (key c).2, ?_⟩ <;> revert c <;> decide +kernel

theorem claiming_capLaw : CapLaw claiming := by
  have key : ∀ c : Chan, ∀ a ∈ (claiming.chan c).analyser, a.cap = claiming.shadow.cap ∧
      (a.phase = .claiming → heldEntries (claiming.chan c).remap < a.cap) := by decide +kernel
  refine ⟨by decide +kernel, key, by decide +kernel⟩

theorem claiming_shadowLaw : ShadowLaw claiming := by
  have h1 : ∀ c : Chan, (claiming.chan c).remap = [] := by decide +kernel
  have h2 : claiming.shadow.holders.toList = List.replicate 32 none := by decide +kernel
  intro c e
  rw [h1, h2, List.getElem?_replicate]
  split <;> simp [namesOf]

theorem witness_SequencerAndArbiterLawsKept :
    SequencerLaw claiming ∧ ArbiterLaw claiming ∧ ∃ t, step claiming = .next t :=
  ⟨claiming_sequencerLaw, by unfold ArbiterLaw; decide +kernel, claiming_steps⟩

theorem witness_FailLogLawsKept :
    SequencerLaw claiming ∧ LogLaw claiming ∧ VisibleLaw claiming ∧ ∃ t, step claiming = .next t :=
  ⟨claiming_sequencerLaw, claiming_logLaw, claiming_visibleLaw, claiming_steps⟩

theorem witness_RemapTableLawsKept :
    SequencerLaw claiming ∧ LogLaw claiming ∧ RepairLaw claiming ∧ SpareLaw claiming ∧ ∃ t, step claiming = .next t :=
  ⟨claiming_sequencerLaw, claiming_logLaw, claiming_repairLaw.1, claiming_spareLaw, claiming_steps⟩

theorem witness_ShadowPoolLawsKept : ShadowLaw claiming ∧ Memory.wf claiming.shadow.store ∧ SequencerLaw claiming ∧
    CapLaw claiming ∧ ∃ t, step claiming = .next t :=
  ⟨claiming_shadowLaw, by decide +kernel, claiming_sequencerLaw, claiming_capLaw, claiming_steps⟩

theorem witness_CreditLawKept : SequencerLaw claiming ∧ CreditLaw claiming ∧ ∃ t, step claiming = .next t :=
  ⟨claiming_sequencerLaw, by unfold CreditLaw; decide +kernel, claiming_steps⟩

theorem witness_PortRefreshAndReadyLawsKept : SequencerLaw claiming ∧ DetectorLaw claiming ∧ RefreshLaw claiming ∧
    WriterLaw claiming ∧ StartLaw claiming ∧ ReadyLaw claiming ∧ claiming.pending.head? ≠ some .resetAssertion ∧
    ∃ t, step claiming = .next t :=
  ⟨claiming_sequencerLaw, by unfold DetectorLaw; decide +kernel, by unfold RefreshLaw; decide +kernel,
    claiming_repairLaw.2, by unfold StartLaw; decide +kernel, by unfold ReadyLaw; decide +kernel, by decide,
    claiming_steps⟩

theorem witness_ReportBytes : LogLaw claiming := claiming_logLaw

/-- Channel 1 FAILED or ABSENT, and its budget timer expires. -/
def lost (x : SeqState) : State := { sample x with pending := [.budgetExpiry 1] }

theorem witness_LostChannelStays : (∀ x ∈ [SeqState.failed, .absent], SequencerLaw (lost x) ∧ (lost x).seqState 1 = x ∧
    (lost x).pending.head? ≠ some .resetAssertion) ∧ ∀ x, ∃ t, step (lost x) = .next t :=
  ⟨by unfold SequencerLaw HeldLaw; decide +kernel, fun _ => ⟨_, rfl⟩⟩

end Sys2Proof.Tests
end

section
/-! The Translation Unit (chapter 1): the codes of an identity (R1 to R3), the quantities it derives (R5 to R7), the
decomposition and the range test (R8, R9), and where a block goes (R11, R13 to R15). -/

namespace Sys2Proof.Machine

/-! ### The fields and codes of an identity (R1, R2) -/

theorem bankCode_toNat (v : BitVec 16) : (v.extractLsb' 12 4).toNat = v.toNat / 4096 := by
  rw [BitVec.extractLsb'_toNat, Nat.shiftRight_eq_div_pow]
  omega

theorem rowCode_toNat (v : BitVec 16) : (v.extractLsb' 8 4).toNat = v.toNat / 256 % 16 := by
  rw [BitVec.extractLsb'_toNat, Nat.shiftRight_eq_div_pow]

theorem columnCode_toNat (v : BitVec 16) : (v.extractLsb' 4 4).toNat = v.toNat / 16 % 16 := by
  rw [BitVec.extractLsb'_toNat, Nat.shiftRight_eq_div_pow]

theorem spareCode_toNat (v : BitVec 16) : (v.extractLsb' 0 4).toNat = v.toNat % 16 := by
  rw [BitVec.extractLsb'_toNat, Nat.shiftRight_zero]

theorem bankCount_eq_getElem? : ∀ code, bankCount code = [4, 8, 16][code]?
  | 0 | 1 | 2 | _ + 3 => rfl

theorem rowCount_eq_getElem? : ∀ code, rowCount code = [8192, 16384, 32768, 65536][code]?
  | 0 | 1 | 2 | 3 | _ + 4 => rfl

theorem columnCount_eq_getElem? : ∀ code, columnCount code = [512, 1024, 2048][code]?
  | 0 | 1 | 2 | _ + 3 => rfl

theorem spareCount_of_le {code : Nat} (h : code ≤ 8) : spareCount code = some (4 * code) := if_pos h

theorem spareCount_of_lt {code : Nat} (h : 8 < code) : spareCount code = none := if_neg (by omega)

/-! ### Decoding an identity (R2) -/

theorem decodeIdentity_eq_some_iff (v : BitVec 16) (w : Width) (g : Geometry) :
    decodeIdentity v w = some g ↔
      bankCount (v.toNat / 4096) = some g.banks ∧ rowCount (v.toNat / 256 % 16) = some g.rows ∧
      columnCount (v.toNat / 16 % 16) = some g.columns ∧ spareCount (v.toNat % 16) = some g.spares ∧ g.width = w := by
  obtain ⟨banks, rows, columns, spares, width⟩ := g
  rw [decodeIdentity, bankCode_toNat, rowCode_toNat, columnCode_toNat, spareCode_toNat]
  split
  next b r c k hb hr hc hk => simp [hb, hr, hc, hk, eq_comm]
  next hnone =>
    refine iff_of_false nofun ?_
    rintro ⟨hb, hr, hc, hk, -⟩
    exact hnone _ _ _ _ hb hr hc hk

/-- One field outside its codes is enough (R2). -/
theorem decodeIdentity_eq_none {v : BitVec 16} (w : Width)
    (h : bankCount (v.toNat / 4096) = none ∨ rowCount (v.toNat / 256 % 16) = none ∨
      columnCount (v.toNat / 16 % 16) = none ∨ spareCount (v.toNat % 16) = none) : decodeIdentity v w = none := by
  refine Option.eq_none_iff_forall_ne_some.mpr fun g hg => ?_
  obtain ⟨hb, hr, hc, hk, -⟩ := (decodeIdentity_eq_some_iff v w g).mp hg
  simp [hb, hr, hc, hk] at h

/-- A geometry that some identity gives at width `w` (R2). -/
structure Geometry.Decoded (g : Geometry) (w : Width) : Prop where
  banks_mem : g.banks ∈ [4, 8, 16]
  rows_mem : g.rows ∈ [8192, 16384, 32768, 65536]
  columns_mem : g.columns ∈ [512, 1024, 2048]
  spares_le : g.spares ≤ 32
  width_eq : g.width = w

theorem decoded_of_decodeIdentity {v : BitVec 16} {w : Width} {g : Geometry} (h : decodeIdentity v w = some g) :
    g.Decoded w := by
  obtain ⟨hb, hr, hc, hk, hw⟩ := (decodeIdentity_eq_some_iff v w g).mp h
  rw [bankCount_eq_getElem?] at hb
  rw [rowCount_eq_getElem?] at hr
  rw [columnCount_eq_getElem?] at hc
  obtain ⟨hle, hspares⟩ := Option.ite_none_right_eq_some.mp hk
  have hle32 : g.spares ≤ 32 := Option.some.inj hspares ▸ Nat.mul_le_mul_left 4 hle
  exact ⟨List.mem_of_getElem? hb, List.mem_of_getElem? hr, List.mem_of_getElem? hc, hle32, hw⟩

/-! ### Row bytes and blocks per row (R5) -/

section
variable {g : Geometry} {w : Width}

theorem Width.wordBytes_mem (w : Width) : w.wordBytes ∈ [4, 8] := by cases w <;> decide

theorem Geometry.Decoded.rowBytes_eq (h : g.Decoded w) : g.rowBytes = g.columns * w.wordBytes := by
  rw [← h.width_eq, Geometry.rowBytes]

/-- The three column counts at the two widths. -/
theorem Geometry.Decoded.row_cases (h : g.Decoded w) :
    (w = .full ∧ (g.columns = 512 ∧ g.rowBytes = 4096 ∨ g.columns = 1024 ∧ g.rowBytes = 8192 ∨
      g.columns = 2048 ∧ g.rowBytes = 16384)) ∨
    (w = .half ∧ (g.columns = 512 ∧ g.rowBytes = 2048 ∨ g.columns = 1024 ∧ g.rowBytes = 4096 ∨
      g.columns = 2048 ∧ g.rowBytes = 8192)) := by
  have hc := h.columns_mem
  simp only [List.mem_cons, List.not_mem_nil, or_false] at hc
  rw [h.rowBytes_eq]
  cases w with
  | full => exact .inl ⟨rfl, by simp only [Width.wordBytes]; omega⟩
  | half => exact .inr ⟨rfl, by simp only [Width.wordBytes]; omega⟩

theorem Geometry.Decoded.rowBytes_mem (h : g.Decoded w) : g.rowBytes ∈ [2048, 4096, 8192, 16384] := by
  have := h.row_cases
  simp only [List.mem_cons, List.not_mem_nil, or_false]
  omega

theorem Geometry.blocksPerRow_eq (g : Geometry) : g.blocksPerRow = g.rowBytes / 64 := rfl

theorem Geometry.Decoded.blocksPerRow_mem (h : g.Decoded w) : g.blocksPerRow ∈ [32, 64, 128, 256] := by
  have := h.row_cases
  simp only [g.blocksPerRow_eq, List.mem_cons, List.not_mem_nil, or_false]
  omega

/-- Blocks fill a row exactly. -/
theorem Geometry.Decoded.blocksPerRow_mul (h : g.Decoded w) : g.blocksPerRow * 64 = g.rowBytes := by
  have := h.row_cases
  rw [g.blocksPerRow_eq]
  omega

theorem Geometry.Decoded.blocksPerRow_eq_columns_div (h : g.Decoded w) :
    g.blocksPerRow = g.columns / w.columnsPerBlock := by
  rw [g.blocksPerRow_eq]
  rcases h.row_cases with ⟨rfl, hrow⟩ | ⟨rfl, hrow⟩
  · simp only [Width.columnsPerBlock]; omega
  · simp only [Width.columnsPerBlock]; omega

/-- No row is larger than a shadow buffer (R83). -/
theorem Geometry.Decoded.rowBytes_le (h : g.Decoded w) : g.rowBytes ≤ Config.bufferBytes := by
  have := h.row_cases
  rw [Config.bufferBytes]
  omega

end

/-! ### The decomposition and the range test (R8, R9) -/

theorem Geometry.decomposition (g : Geometry) (a : Nat) :
    a = (g.rowOf a * g.banks + g.bankOf a) * g.blocksPerRow + g.blockCol a := by
  simp only [Geometry.rowOf, Geometry.bankOf, Geometry.blockCol, Nat.div_add_mod']

theorem Geometry.bankOf_lt {g : Geometry} (hb : 0 < g.banks) (a : Nat) : g.bankOf a < g.banks := Nat.mod_lt _ hb

theorem Geometry.blockCol_lt {g : Geometry} (hn : 0 < g.blocksPerRow) (a : Nat) : g.blockCol a < g.blocksPerRow :=
  Nat.mod_lt _ hn

/-- R9's reason: the comparison passes through the row-and-bank number a / blocks per row. -/
theorem Geometry.lt_visibleBlocks_iff {g : Geometry} (hb : 0 < g.banks) (hn : 0 < g.blocksPerRow) (a : Nat) :
    a < g.visibleBlocks ↔ g.rowOf a < g.visibleRows := by
  calc a < g.banks * g.visibleRows * g.blocksPerRow
      ↔ a / g.blocksPerRow < g.banks * g.visibleRows := (Nat.div_lt_iff_lt_mul hn).symm
    _ ↔ a / g.blocksPerRow / g.banks < g.visibleRows := by rw [Nat.div_lt_iff_lt_mul hb, Nat.mul_comm]

section
variable {g : Geometry} {w : Width}

theorem Geometry.Decoded.banks_pos (h : g.Decoded w) : 0 < g.banks := by
  have := h.banks_mem
  simp only [List.mem_cons, List.not_mem_nil, or_false] at this
  omega

theorem Geometry.Decoded.blocksPerRow_pos (h : g.Decoded w) : 0 < g.blocksPerRow := by
  have := h.blocksPerRow_mem
  simp only [List.mem_cons, List.not_mem_nil, or_false] at this
  omega

theorem Geometry.Decoded.spares_lt_rows (h : g.Decoded w) : g.spares < g.rows := by
  have hr := h.rows_mem
  have := h.spares_le
  simp only [List.mem_cons, List.not_mem_nil, or_false] at hr
  omega

/-- Each factor at its largest: 16 banks, 65536 rows, 256 blocks. -/
theorem Geometry.Decoded.visibleBlocks_le (h : g.Decoded w) : g.visibleBlocks ≤ 2 ^ 28 := by
  have hb := h.banks_mem
  have hr := h.rows_mem
  have hn := h.blocksPerRow_mem
  simp only [List.mem_cons, List.not_mem_nil, or_false] at hb hr hn
  calc g.banks * (g.rows - g.spares) * g.blocksPerRow
      ≤ 16 * 65536 * 256 := Nat.mul_le_mul (Nat.mul_le_mul (by omega) (by omega)) (by omega)
    _ = 2 ^ 28 := by decide

end

/-! ### Where a block goes (R11, R13 to R15, R74) -/

theorem remapLookup_eq_none {t : List RemapEntry} {bank row : Nat} (h : ∀ e ∈ t, ¬(e.bank = bank ∧ e.row = row)) :
    remapLookup t bank row = none := by
  rw [remapLookup, Option.map_eq_none_iff, List.find?_eq_none]
  simpa using h

/-- R73 leaves a row at most one entry, so the lookup's choice is no choice. -/
theorem remapLookup_of_unique {t : List RemapEntry} {e : RemapEntry} (he : e ∈ t)
    (hone : ∀ x ∈ t, x.bank = e.bank → x.row = e.row → x = e) : remapLookup t e.bank e.row = some e.target := by
  rw [remapLookup]
  cases hfind : t.find? fun x => x.bank == e.bank && x.row == e.row with
  | none => simpa using List.find?_eq_none.mp hfind e he
  | some x =>
    obtain ⟨hbank, hrow⟩ : x.bank = e.bank ∧ x.row = e.row := by simpa using List.find?_some hfind
    rw [hone x (List.mem_of_find?_eq_some hfind) hbank hrow, Option.map_some]

/-- The destination of a block in range, by what the Remap Table says of its row. -/
def Geometry.destOf (g : Geometry) (a : Nat) : Option Target → Dest
  | none => .direct (g.bankOf a) (g.rowOf a) (g.blockCol a)
  | some (.spare k) => .spare (g.bankOf a) (g.spareRow k) (g.blockCol a)
  | some (.shadow n) => .shadow n (g.blockCol a)

theorem Geometry.destOf_ne_outside (g : Geometry) (a : Nat) : ∀ x, g.destOf a x ≠ .outside
  | none | some (.spare _) | some (.shadow _) => nofun

theorem Geometry.dest_of_lt {g : Geometry} {a : Nat} (t : List RemapEntry) (h : a < g.visibleBlocks) :
    g.dest t a = g.destOf a (remapLookup t (g.bankOf a) (g.rowOf a)) := by
  rw [Geometry.dest, if_pos h]
  cases remapLookup t (g.bankOf a) (g.rowOf a) with
  | none => rfl
  | some x => cases x <;> rfl

theorem Geometry.dest_eq_outside_iff (g : Geometry) (t : List RemapEntry) (a : Nat) :
    g.dest t a = .outside ↔ ¬a < g.visibleBlocks := by
  by_cases h : a < g.visibleBlocks
  · simp [g.dest_of_lt t h, g.destOf_ne_outside a, h]
  · simp [Geometry.dest, h]

theorem Geometry.dest_of_unique {g : Geometry} {t : List RemapEntry} {a : Nat} (h : a < g.visibleBlocks)
    {e : RemapEntry} (he : e ∈ t) (hbank : e.bank = g.bankOf a) (hrow : e.row = g.rowOf a)
    (hone : ∀ x ∈ t, x.bank = g.bankOf a → x.row = g.rowOf a → x = e) : g.dest t a = g.destOf a (some e.target) := by
  rw [← hbank, ← hrow] at hone
  rw [g.dest_of_lt t h, ← hbank, ← hrow, remapLookup_of_unique he hone]

/-- The row one beyond the last visible row (R9). -/
theorem Geometry.Decoded.firstHiddenRow {g : Geometry} {w : Width} (h : g.Decoded w) (t : List RemapEntry) {a : Nat}
    (ha : g.rowOf a = g.visibleRows) :
    g.dest t a = .outside ∧ (0 < g.spares → g.rowOf a = g.spareRow 0 ∧ g.rowOf a < g.rows) := by
  constructor
  · rw [g.dest_eq_outside_iff, g.lt_visibleBlocks_iff h.banks_pos h.blocksPerRow_pos, ha]
    exact lt_irrefl _
  · intro hpos
    have hlt : g.rows - g.spares < g.rows := Nat.sub_lt (Nat.zero_lt_of_lt h.spares_lt_rows) hpos
    rw [ha]
    exact ⟨rfl, hlt⟩

/-! ### A channel with and without a geometry (R4) -/

theorem Channel.quantities_of_geometry {ch : Channel} {g : Geometry} (h : ch.geometry = some g) :
    ch.visibleBlocks = g.visibleBlocks ∧ ch.escapeBlock = some g.escapeBlock ∧ ch.layout = g.width ∧
    ch.spares = g.spares ∧ ∀ a, ch.dest a = g.dest ch.remap a := by
  simp [Channel.visibleBlocks, Channel.escapeBlock, Channel.layout, Channel.spares, Channel.dest, h]

theorem Channel.quantities_of_no_geometry {ch : Channel} (h : ch.geometry = none) :
    ch.visibleBlocks = 0 ∧ ch.escapeBlock = none ∧ ∀ a, ch.dest a = .outside := by
  simp [Channel.visibleBlocks, Channel.escapeBlock, Channel.dest, h]

/-! ### The obligations -/

/-- Settles O52. A block in range goes where the lookup says; the range test of a decoded geometry, whose banks and blocks
per row are positive and whose factors are bounded, passes through the row. -/
theorem rangeTest : Obligations.RangeTest := by
  unfold Obligations.RangeTest
  refine ⟨fun g t a ha => ⟨fun hno => ?direct, fun e he hbank hrow hone => ?substituted⟩, fun g => ⟨rfl, rfl, rfl⟩,
    fun ch => ⟨fun g => Channel.quantities_of_geometry, Channel.quantities_of_no_geometry⟩, fun v w g t a hdec => ?decoded⟩
  case direct => rw [g.dest_of_lt t ha, remapLookup_eq_none hno, Geometry.destOf]
  case substituted =>
    rw [Geometry.dest_of_unique ha he hbank hrow hone]
    exact ⟨fun k hk => by rw [hk, Geometry.destOf, Geometry.spareRow], fun n hn => by rw [hn, Geometry.destOf]⟩
  case decoded =>
    have hg := decoded_of_decodeIdentity hdec
    have hout := g.dest_eq_outside_iff t a
    exact ⟨hout, g.lt_visibleBlocks_iff hg.banks_pos hg.blocksPerRow_pos a, hg.firstHiddenRow t,
      fun hbig => hout.mpr (hg.visibleBlocks_le.trans hbig).not_gt, g.decomposition a,
      g.bankOf_lt hg.banks_pos a, g.blockCol_lt hg.blocksPerRow_pos a⟩

/-- Settles O51. The codes are the four tables of R2 read at the identity's fields; R5's quantities follow from the three
column counts at the two widths. -/
theorem rowBytes : Obligations.RowBytes := by
  unfold Obligations.RowBytes
  refine ⟨fun v w => ⟨fun banks rows columns hb hr hc hk => ?sound, fun hbad => ?undecodable⟩,
    ⟨rfl, rfl, rfl, rfl, rfl, rfl⟩, fun v w g hdec => ?row⟩
  case sound =>
    rw [decodeIdentity_eq_some_iff, bankCount_eq_getElem?, rowCount_eq_getElem?, columnCount_eq_getElem?]
    exact ⟨hb, hr, hc, spareCount_of_le hk, rfl⟩
  case undecodable =>
    refine decodeIdentity_eq_none w (hbad.imp ?_ (Or.imp ?_ (Or.imp ?_ spareCount_of_lt)))
    · exact fun h => (bankCount_eq_getElem? _).trans (List.getElem?_eq_none h)
    · exact fun h => (rowCount_eq_getElem? _).trans (List.getElem?_eq_none h)
    · exact fun h => (columnCount_eq_getElem? _).trans (List.getElem?_eq_none h)
  case row =>
    have hg := decoded_of_decodeIdentity hdec
    refine ⟨hg.rowBytes_eq, g.blocksPerRow_eq, hg.blocksPerRow_mul, hg.columns_mem, w.wordBytes_mem, hg.rowBytes_mem,
      hg.blocksPerRow_mem, hg.blocksPerRow_eq_columns_div, fun hc hw => ?smallest, fun hc hw => ?largest, hg.rowBytes_le⟩
    case smallest =>
      have hrow : g.rowBytes = 2048 := by rw [hg.rowBytes_eq, hc, hw, Width.wordBytes]
      exact ⟨hrow, by rw [g.blocksPerRow_eq, hrow]⟩
    case largest =>
      have hrow : g.rowBytes = 16384 := by rw [hg.rowBytes_eq, hc, hw, Width.wordBytes]
      exact ⟨hrow, by rw [g.blocksPerRow_eq, hrow], hrow⟩

end Sys2Proof.Machine
end

section
/-! The Fail Log (chapter 3): the column list of a record (R42), the four cases of a fail event (R39 to R47), and what
keeps R37's and R38's laws. -/

namespace Sys2Proof.Machine

/-! ### The column list (R42) -/

theorem mergeColumns_full {cols : List Nat} (many : Bool) (fresh : List Nat) (h : cols.length = 4) :
    mergeColumns cols many fresh = (cols, many || fresh.any fun x => !cols.contains x) := by
  induction fresh generalizing many with
  | nil => simp [mergeColumns]
  | cons x xs ih =>
    rw [mergeColumns]
    by_cases hc : cols.contains x = true
    · rw [if_pos hc, ih, List.any_cons, hc, Bool.not_true, Bool.false_or]
    · rw [if_neg hc, if_neg (by simp [h, Config.columnCapacity]), ih, List.any_cons, Bool.eq_false_iff.mpr hc]
      simp

theorem filter_not_contains_append {cols xs : List Nat} {x : Nat} (h : x ∉ xs) :
    xs.filter (fun y => !(cols ++ [x]).contains y) = xs.filter fun y => !cols.contains y := by
  refine List.filter_congr fun y hy => ?_
  have : y ≠ x := fun e => h (e ▸ hy)
  simp [this]

/-- The columns first seen, each once, up to four; a fifth sets the many-columns flag (R42). -/
theorem mergeColumns_eq {cols : List Nat} (many : Bool) {fresh : List Nat} (h : cols.length ≤ 4) (hf : fresh.Nodup) :
    mergeColumns cols many fresh =
      ((cols ++ fresh.filter fun x => !cols.contains x).take 4,
       many || decide (4 < (cols ++ fresh.filter fun x => !cols.contains x).length)) := by
  induction fresh generalizing cols many with
  | nil => simp [mergeColumns, List.take_of_length_le h]; omega
  | cons x xs ih =>
    obtain ⟨hx, hxs⟩ := List.nodup_cons.mp hf
    rw [mergeColumns]
    by_cases hc : cols.contains x = true
    · rw [if_pos hc, ih many h hxs, List.filter_cons_of_neg (by simpa using hc)]
    · rw [if_neg hc, List.filter_cons_of_pos (by simpa using hc)]
      by_cases hlen : cols.length < 4
      · rw [if_pos (show cols.length < Config.columnCapacity from hlen), ih many (by simp; omega) hxs, filter_not_contains_append hx]
        simp
      · have h4 : cols.length = 4 := by omega
        rw [if_neg (show ¬cols.length < Config.columnCapacity from hlen), mergeColumns_full true xs h4]
        simp [← h4]

/-- A list of columns that R42 allows: one to four distinct columns. -/
def ColumnsOk (cols : List Nat) : Prop := 1 ≤ cols.length ∧ cols.length ≤ 4 ∧ cols.Nodup

theorem mergeColumns_nodup {cols : List Nat} (many : Bool) {fresh : List Nat} (h : cols.length ≤ 4) (hc : cols.Nodup)
    (hf : fresh.Nodup) : (mergeColumns cols many fresh).1.Nodup := by
  rw [mergeColumns_eq many h hf]
  refine List.Nodup.sublist (List.take_sublist _ _) (hc.append (hf.filter _) ?_)
  intro x hx hx'
  simp_all

theorem columnsOk_merge {cols : List Nat} (many : Bool) {fresh : List Nat} (h : ColumnsOk cols) (hf : fresh.Nodup) :
    ColumnsOk (mergeColumns cols many fresh).1 := by
  obtain ⟨hpos, hle, hnodup⟩ := h
  refine ⟨?_, ?_, mergeColumns_nodup many hle hnodup hf⟩
  · rw [mergeColumns_eq many hle hf]; simp; omega
  · rw [mergeColumns_eq many hle hf]; simp

theorem columnsOk_create {fresh : List Nat} (hne : fresh ≠ []) (hf : fresh.Nodup) :
    ColumnsOk (mergeColumns [] false fresh).1 := by
  have hpos := List.length_pos_of_ne_nil hne
  refine ⟨?_, ?_, mergeColumns_nodup false (by simp) List.nodup_nil hf⟩
  · rw [mergeColumns_eq false (by simp) hf]; simp; omega
  · rw [mergeColumns_eq false (by simp) hf]; simp

/-! ### Taking an event (R39) -/

@[simp] theorem hasKey_iff (r : FailRecord) (bank row : Nat) : r.hasKey bank row = true ↔ r.bank = bank ∧ r.row = row := by
  simp [FailRecord.hasKey]

theorem addSpare_records (l : FailLog) (bank k : Nat) : (l.addSpare bank k).records = l.records := by
  unfold FailLog.addSpare; split <;> rfl

theorem mem_addSpare (l : FailLog) (bank k : Nat) (x : Nat × Nat) :
    x ∈ (l.addSpare bank k).failedSpares ↔ x ∈ l.failedSpares ∨ x = (bank, k) := by
  unfold FailLog.addSpare
  split <;> simp_all

theorem addSpare_nodup {l : FailLog} (bank k : Nat) (h : l.failedSpares.Nodup) : (l.addSpare bank k).failedSpares.Nodup := by
  unfold FailLog.addSpare
  split
  · exact h
  · refine h.append (List.nodup_singleton _) ?_
    simp_all

/-- The log knows the event's row (R39). -/
def FailLog.knows (l : FailLog) (ev : FailEvent) : Prop := ∃ r ∈ l.records, r.bank = ev.bank ∧ r.row = ev.row

section
variable {l : FailLog} {visible : Nat} {ev : FailEvent}

/-- A hidden row joins the failed spares (R46). -/
theorem take_hidden (h : visible ≤ ev.row) : l.take visible ev = (l.addSpare ev.bank (ev.row - visible), false) := by
  rw [FailLog.take, if_pos h]

/-- A known row merges (R41). -/
theorem take_merge (h : ev.row < visible) (hk : l.knows ev) :
    l.take visible ev =
      ({ l with records := l.records.map fun r => if r.hasKey ev.bank ev.row then r.merge ev else r }, false) := by
  rw [FailLog.take, if_neg (by omega), if_pos]
  obtain ⟨r, hr, hkey⟩ := hk
  exact List.any_eq_true.mpr ⟨r, hr, (hasKey_iff ..).mpr hkey⟩

theorem any_hasKey_of_not_knows (hk : ¬l.knows ev) : ¬(l.records.any fun r => r.hasKey ev.bank ev.row) = true := by
  rw [List.any_eq_true]
  rintro ⟨r, hr, hkey⟩
  exact hk ⟨r, hr, (hasKey_iff ..).mp hkey⟩

/-- A new row is created while there is room (R40). -/
theorem take_create (h : ev.row < visible) (hk : ¬l.knows ev) (hlen : l.records.length < 128) :
    l.take visible ev = ({ l with records := l.records ++ [ev.record] }, false) := by
  rw [FailLog.take, if_neg (by omega), if_neg (any_hasKey_of_not_knows hk), if_pos (show l.records.length < Config.logCapacity from hlen)]

/-- Else the answer is overflow (R47). -/
theorem take_overflow (h : ev.row < visible) (hk : ¬l.knows ev) (hlen : 128 ≤ l.records.length) :
    l.take visible ev = (l, true) := by
  rw [FailLog.take, if_neg (by omega), if_neg (any_hasKey_of_not_knows hk), if_neg]
  exact hlen.not_gt

/-- The four cases of R39, the first that applies. -/
theorem take_cases (l : FailLog) (visible : Nat) (ev : FailEvent) :
    (visible ≤ ev.row ∧ l.take visible ev = (l.addSpare ev.bank (ev.row - visible), false)) ∨
    (ev.row < visible ∧ l.knows ev ∧ l.take visible ev =
      ({ l with records := l.records.map fun r => if r.hasKey ev.bank ev.row then r.merge ev else r }, false)) ∨
    (ev.row < visible ∧ ¬l.knows ev ∧ l.records.length < 128 ∧
      l.take visible ev = ({ l with records := l.records ++ [ev.record] }, false)) ∨
    (ev.row < visible ∧ ¬l.knows ev ∧ 128 ≤ l.records.length ∧ l.take visible ev = (l, true)) := by
  by_cases h : visible ≤ ev.row
  · exact .inl ⟨h, take_hidden h⟩
  · have h := Nat.lt_of_not_le h
    by_cases hk : l.knows ev
    · exact .inr (.inl ⟨h, hk, take_merge h hk⟩)
    · by_cases hlen : l.records.length < 128
      · exact .inr (.inr (.inl ⟨h, hk, hlen, take_create h hk hlen⟩))
      · have hlen := Nat.le_of_not_lt hlen
        exact .inr (.inr (.inr ⟨h, hk, hlen, take_overflow h hk hlen⟩))

end

theorem merge_count (r : FailRecord) (ev : FailEvent) :
    (r.merge ev).count = if r.count < 255 then r.count + 1 else 255 := by
  simp only [FailRecord.merge, Config.countMax]
  split <;> omega

/-- Settles O31: the cases of R39 are those of `FailLog.take`, and R42's list is what `mergeColumns` folds up. -/
theorem failLogTakesEvent : Obligations.FailLogTakesEvent := by
  unfold Obligations.FailLogTakesEvent
  refine ⟨fun l visible ev => ⟨fun h => ?hidden, fun h hk => ?merge, fun h hk hlen => take_create h hk hlen,
    fun h hk hlen => take_overflow h hk hlen⟩, fun cols fresh many h hf => mergeColumns_eq many h hf⟩
  case hidden => rw [take_hidden h]; exact ⟨rfl, addSpare_records .., mem_addSpare l _ _⟩
  case merge =>
    rw [take_merge h hk]
    congr 2
    refine List.map_congr_left fun r _ => ?_
    simp only [hasKey_iff]
    split
    · rw [← merge_count r ev]; rfl
    · rfl

/-! ### The laws of one log (R37, R38) -/

/-- R37's and R38's laws for one Fail Log. -/
structure FailLog.Ok (l : FailLog) : Prop where
  length_le : l.records.length ≤ 128
  keys : (l.records.map fun r => (r.bank, r.row)).Nodup
  spares : l.failedSpares.Nodup
  records : ∀ r ∈ l.records, 1 ≤ r.count ∧ r.count ≤ 255 ∧ ColumnsOk r.columns

theorem logLaw_iff (s : State) : LogLaw s ↔ ∀ c, (s.chan c).log.Ok := by
  refine forall_congr' fun c => ⟨fun ⟨h1, h2, h3, h4⟩ => ⟨h1, h2, h3, h4⟩, fun h => ⟨h.1, h.2, h.3, h.4⟩⟩

theorem FailLog.empty_ok : FailLog.empty.Ok := ⟨by simp [empty], by simp [empty], by simp [empty], by simp [empty]⟩

theorem merge_keys (l : List FailRecord) (ev : FailEvent) :
    (l.map fun r => if r.hasKey ev.bank ev.row then r.merge ev else r).map (fun r => (r.bank, r.row)) =
      l.map fun r => (r.bank, r.row) := by
  rw [List.map_map]
  refine List.map_congr_left fun r _ => ?_
  simp only [Function.comp]
  split <;> rfl

theorem FailLog.Ok.take {l : FailLog} (h : l.Ok) (visible : Nat) {ev : FailEvent} (hne : ev.columns ≠ [])
    (hf : ev.columns.Nodup) : (l.take visible ev).1.Ok := by
  obtain ⟨hlen, hkeys, hspares, hrecs⟩ := h
  rcases take_cases l visible ev with ⟨-, ht⟩ | ⟨-, -, ht⟩ | ⟨-, hk, hroom, ht⟩ | ⟨-, -, -, ht⟩ <;> rw [ht]
  · rw [← addSpare_records l ev.bank (ev.row - visible)] at hlen hkeys hrecs
    exact ⟨hlen, hkeys, addSpare_nodup _ _ hspares, hrecs⟩
  · refine ⟨by simpa using hlen, (merge_keys l.records ev).symm ▸ hkeys, hspares, fun r' hr' => ?_⟩
    obtain ⟨r, hr, rfl⟩ := List.mem_map.mp hr'
    obtain ⟨h1, h255, hcols⟩ := hrecs r hr
    split
    · rw [merge_count]
      exact ⟨by split <;> omega, by split <;> omega, columnsOk_merge r.many hcols hf⟩
    · exact ⟨h1, h255, hcols⟩
  · refine ⟨by simp; omega, ?_, hspares, fun r hr => ?_⟩
    · rw [List.map_append]
      refine hkeys.append (List.nodup_singleton _) fun x hx hx' => hk ?_
      obtain ⟨r, hr, rfl⟩ := List.mem_map.mp hx
      obtain ⟨hb, hrow⟩ : r.bank = ev.bank ∧ r.row = ev.row := by simpa [FailEvent.record] using hx'
      exact ⟨r, hr, hb, hrow⟩
    · rcases List.mem_append.mp hr with hr | hr
      · exact hrecs r hr
      · obtain rfl := List.mem_singleton.mp hr
        exact ⟨le_rfl, by simp [FailEvent.record], columnsOk_create hne hf⟩
  · exact ⟨hlen, hkeys, hspares, hrecs⟩

/-! ### Writing statuses (R48, R56) -/

/-- The log `l'` is `l` with some statuses and targets written anew. -/
def Restatused (l l' : FailLog) : Prop :=
  l'.failedSpares = l.failedSpares ∧
  List.Forall₂ (fun r r' => r' = { r with status := r'.status, target := r'.target }) l.records l'.records

theorem Restatused.refl (l : FailLog) : Restatused l l := ⟨rfl, List.forall₂_same.mpr fun _ _ => rfl⟩

theorem Restatused.trans {l m n : FailLog} (h : Restatused l m) (h' : Restatused m n) : Restatused l n := by
  refine ⟨h'.1.trans h.1, ?_⟩
  have key : ∀ {x y z : List FailRecord},
      List.Forall₂ (fun r r' : FailRecord => r' = { r with status := r'.status, target := r'.target }) x y →
      List.Forall₂ (fun r r' : FailRecord => r' = { r with status := r'.status, target := r'.target }) y z →
      List.Forall₂ (fun r r' : FailRecord => r' = { r with status := r'.status, target := r'.target }) x z := by
    intro x y z h1
    induction h1 generalizing z with
    | nil => rintro ⟨⟩; exact .nil
    | cons hr _ ih =>
      rintro (_ | ⟨hr', hrest⟩)
      refine .cons ?_ (ih hrest)
      rw [hr'.trans (by rw [hr])]
  exact key h.2 h'.2

theorem restatused_map (l : FailLog) (f : FailRecord → FailRecord)
    (h : ∀ r, f r = { r with status := (f r).status, target := (f r).target }) :
    Restatused l { l with records := l.records.map f } :=
  ⟨rfl, by rw [List.forall₂_map_right_iff]; exact List.forall₂_same.mpr fun r _ => h r⟩

theorem restatused_setStatus (l : FailLog) (bank row : Nat) (st : RecStatus) (x : Option Nat) :
    Restatused l (l.setStatus bank row st x) :=
  restatused_map l _ fun r => by split <;> rfl

theorem restatused_faultBank (l : FailLog) (bank : Nat) : Restatused l (l.faultBank bank) :=
  restatused_map l _ fun r => by split <;> rfl

/-- What a record holds beside its status and target is the same after as before. -/
theorem Restatused.map_eq {α : Type} {l l' : FailLog} (h : Restatused l l') (f : FailRecord → α)
    (hf : ∀ r st x, f { r with status := st, target := x } = f r) : l'.records.map f = l.records.map f := by
  have key : ∀ {x y : List FailRecord},
      List.Forall₂ (fun r r' : FailRecord => r' = { r with status := r'.status, target := r'.target }) x y →
      y.map f = x.map f := by
    intro x y h
    induction h with
    | nil => rfl
    | cons hr _ ih => rw [List.map_cons, List.map_cons, ih, hr, hf]
  exact key h.2

theorem Restatused.exists_mem {l l' : FailLog} (h : Restatused l l') {r' : FailRecord} (hr' : r' ∈ l'.records) :
    ∃ r ∈ l.records, r' = { r with status := r'.status, target := r'.target } := by
  obtain ⟨i, hi, rfl⟩ := List.getElem_of_mem hr'
  have hlen := h.2.length_eq
  exact ⟨l.records[i], List.getElem_mem _, h.2.get (by omega) hi⟩

theorem FailLog.Ok.restatused {l l' : FailLog} (h : l.Ok) (hr : Restatused l l') : l'.Ok := by
  refine ⟨hr.2.length_eq ▸ h.length_le, (hr.map_eq (fun r => (r.bank, r.row)) fun _ _ _ => rfl) ▸ h.keys, hr.1 ▸ h.spares, fun r' hr' => ?_⟩
  obtain ⟨r, hmem, heq⟩ := hr.exists_mem hr'
  rw [heq]
  exact h.records r hmem

end Sys2Proof.Machine
end

section
/-! The Repair Analyser (chapter 4): the order of candidates (R57), the spare a candidate takes (R58), and one rule for
the passes of an analysis, from which each law of the Remap Table and the Fail Log follows. -/

namespace Sys2Proof.Machine

/-! ### The order of candidates (R57) -/

theorem insertByCount_perm (x : FailRecord) (l : List FailRecord) : (insertByCount x l).Perm (x :: l) := by
  induction l with
  | nil => exact .refl _
  | cons y ys ih =>
    rw [insertByCount]
    split
    · exact .refl _
    · exact (ih.cons y).trans (.swap ..)

theorem byCount_perm (l : List FailRecord) : (byCount l).Perm l := by
  induction l with
  | nil => exact .refl _
  | cons x xs ih => exact (insertByCount_perm x _).trans (ih.cons x)

theorem insertByCount_sorted (x : FailRecord) {l : List FailRecord} (h : l.Pairwise fun x y => y.count ≤ x.count) :
    (insertByCount x l).Pairwise fun x y => y.count ≤ x.count := by
  induction l with
  | nil => exact List.pairwise_singleton _ _
  | cons y ys ih =>
    obtain ⟨hy, hys⟩ := List.pairwise_cons.mp h
    rw [insertByCount]
    split
    · refine List.pairwise_cons.mpr ⟨fun z hz => ?_, h⟩
      rcases List.mem_cons.mp hz with rfl | hz
      · assumption
      · exact (hy z hz).trans ‹_›
    · refine List.pairwise_cons.mpr ⟨fun z hz => ?_, ih hys⟩
      rcases List.mem_cons.mp ((insertByCount_perm x ys).mem_iff.mp hz) with rfl | hz
      · omega
      · exact hy z hz

theorem byCount_sorted (l : List FailRecord) : (byCount l).Pairwise fun x y => y.count ≤ x.count := by
  induction l with
  | nil => exact .nil
  | cons x xs ih => exact insertByCount_sorted x ih

/-- Equal counts stay in log order. -/
theorem insertByCount_filter (x : FailRecord) (l : List FailRecord) (n : Nat) :
    (insertByCount x l).filter (fun r => r.count = n) = (x :: l).filter fun r => r.count = n := by
  induction l with
  | nil => rfl
  | cons y ys ih =>
    rw [insertByCount]
    split
    · rfl
    · rw [List.filter_cons, ih]
      by_cases hx : x.count = n
      · have hy : y.count ≠ n := by omega
        simp [hx, hy]
      · simp [hx, List.filter_cons]

theorem byCount_filter (l : List FailRecord) (n : Nat) :
    (byCount l).filter (fun r => r.count = n) = l.filter fun r => r.count = n := by
  induction l with
  | nil => rfl
  | cons x xs ih =>
    rw [byCount, List.foldr_cons, insertByCount_filter, List.filter_cons, List.filter_cons, ← ih, byCount]

/-! ### Good spares (R58) -/

/-- The good and free bank spares of the bank under analysis, ascending. -/
def Analysis.goodSpares (a : Analysis) (l : FailLog) (spares : Nat) : List Nat :=
  (List.range spares).filter fun k => (a.bank, k) ∉ l.failedSpares ∧ k ∉ a.given

theorem goodSpare_eq_head? (a : Analysis) (l : FailLog) (spares : Nat) :
    a.goodSpare l spares = (a.goodSpares l spares).head? := by
  rw [Analysis.goodSpare, Analysis.goodSpares, List.head?_filter]
  congr 1
  funext k
  simp [FailLog.spareFailed]

theorem goodSpare_eq_some_iff (a : Analysis) (l : FailLog) (spares k : Nat) :
    a.goodSpare l spares = some k ↔ (k < spares ∧ (a.bank, k) ∉ l.failedSpares ∧ k ∉ a.given) ∧
      ∀ j < k, ¬(j < spares ∧ (a.bank, j) ∉ l.failedSpares ∧ j ∉ a.given) := by
  rw [Analysis.goodSpare, List.find?_range_eq_some]
  simp only [FailLog.spareFailed, List.contains_eq_mem, Bool.and_eq_true, Bool.not_eq_true', decide_eq_false_iff_not,
    List.mem_range]
  constructor
  · rintro ⟨⟨h1, h2⟩, h3, h4⟩
    refine ⟨⟨h3, h1, h2⟩, fun j hj hgood => ?_⟩
    have := h4 j hj
    simp_all
  · rintro ⟨⟨h1, h2, h3⟩, h4⟩
    refine ⟨⟨h2, h3⟩, h1, fun j hj => ?_⟩
    have := h4 j hj
    have : j < spares := by omega
    simp_all

theorem goodSpare_eq_none_iff (a : Analysis) (l : FailLog) (spares : Nat) :
    a.goodSpare l spares = none ↔ ∀ k, ¬(k < spares ∧ (a.bank, k) ∉ l.failedSpares ∧ k ∉ a.given) := by
  rw [Analysis.goodSpare, List.find?_eq_none]
  simp [FailLog.spareFailed]

/-! ### The passes -/

@[simp] theorem repairSpare_log (ch : Channel) (bank row k : Nat) :
    (ch.repairSpare bank row k).log = ch.log.setStatus bank row .repairedSpare (some k) := rfl
@[simp] theorem repairSpare_remap (ch : Channel) (bank row k : Nat) :
    (ch.repairSpare bank row k).remap = ch.remap ++ [{ bank := bank, row := row, target := .spare k }] := rfl
@[simp] theorem repairShadow_log (ch : Channel) (bank row e : Nat) :
    (ch.repairShadow bank row e).log = ch.log.setStatus bank row .repairedShadow (some e) := rfl
@[simp] theorem repairShadow_remap (ch : Channel) (bank row e : Nat) :
    (ch.repairShadow bank row e).remap = ch.remap ++ [{ bank := bank, row := row, target := .shadow e }] := rfl
@[simp] theorem markUnrepairable_log (ch : Channel) (bank row : Nat) :
    (ch.markUnrepairable bank row).log = ch.log.setStatus bank row .unrepairable none := rfl
@[simp] theorem markUnrepairable_remap (ch : Channel) (bank row : Nat) : (ch.markUnrepairable bank row).remap = ch.remap := rfl

/-- The rows a marginal pass treats. -/
def Channel.marginalRows (ch : Channel) (bank : Nat) : List Nat :=
  (byCount (ch.log.pendingOf bank)).map FailRecord.row

theorem beginMarginal_eq (a : Analysis) (ch : Channel) : beginMarginal a ch = marginalPass (ch.marginalRows a.bank) a ch := rfl

/-- What one candidate's treatment keeps of `P`, which speaks of the rows still to be treated. -/
structure Treatable (P : List Nat → Analysis → Channel → Prop) : Prop where
  spare : ∀ {row rest a ch k}, a.complete = true → a.goodSpare ch.log ch.spares = some k → P (row :: rest) a ch →
    P rest { a with given := k :: a.given } (ch.repairSpare a.bank row k)
  unrepairable : ∀ {row rest a ch}, P (row :: rest) a ch → P rest a (ch.markUnrepairable a.bank row)
  marginal : ∀ {row rest a ch}, P (row :: rest) a ch →
    P rest a { ch with log := ch.log.setStatus a.bank row .marginal none }
  refill : ∀ {a ch}, P [] a ch → P (ch.marginalRows a.bank) a ch

section
variable {P : List Nat → Analysis → Channel → Prop}

theorem Treatable.marginalPass (hP : Treatable P) (rows : List Nat) (a : Analysis) (ch : Channel) (h : P rows a ch) :
    ∃ a' ch', P [] a' ch' ∧
      marginalPass rows a ch = { ch' with analyser := some { a' with phase := .marginal, candidates := [] } } := by
  induction rows generalizing a ch with
  | nil => exact ⟨a, ch, h, rfl⟩
  | cons row rest ih =>
    rw [Machine.marginalPass]
    split
    next k hk =>
      obtain ⟨hc, hk⟩ := Option.ite_none_right_eq_some.mp hk
      exact ih _ _ (hP.spare (Bool.and_eq_true_iff.mp hc).1 hk h)
    next => exact ih _ _ (hP.marginal h)

/-- An analysis goes on to its next claim, for which there is room under the cap, or to its end (R57 to R61). -/
theorem Treatable.primaryPass (hP : Treatable P) (rows : List Nat) (a : Analysis) (ch : Channel) (h : P rows a ch) :
    ∃ a' ch' rows', P rows' a' ch' ∧
      ((rows' ≠ [] ∧ heldEntries ch'.remap < a'.cap ∧
          primaryPass rows a ch = { ch' with analyser := some { a' with phase := .claiming, candidates := rows' } }) ∨
       (rows' = [] ∧
          primaryPass rows a ch = { ch' with analyser := some { a' with phase := .marginal, candidates := [] } })) := by
  induction rows generalizing a ch with
  | nil =>
    obtain ⟨a', ch', h', heq⟩ := hP.marginalPass _ a ch (hP.refill h)
    exact ⟨a', ch', [], h', .inr ⟨rfl, heq⟩⟩
  | cons row rest ih =>
    rw [Machine.primaryPass]
    split
    next k hk =>
      obtain ⟨hc, hk⟩ := Option.ite_none_right_eq_some.mp hk
      exact ih _ _ (hP.spare hc hk h)
    next =>
      split
      next hroom => exact ⟨a, ch, row :: rest, h, .inl ⟨nofun, hroom, rfl⟩⟩
      next => exact ih _ _ (hP.unrepairable h)

end

/-! ### What an analysis leaves alone -/

/-- The channel `b` is `a` but for what an analysis works on: the statuses of the Fail Log, the Remap Table, the causes and
the analyser. -/
structure AnalysisKeeps (a b : Channel) : Prop where
  frame : b = { a with log := b.log, remap := b.remap, seq := { a.seq with causes := b.seq.causes }, analyser := b.analyser }
  log : Restatused a.log b.log

theorem AnalysisKeeps.refl (a : Channel) : AnalysisKeeps a a := ⟨rfl, .refl _⟩

theorem AnalysisKeeps.trans {a b c : Channel} (h : AnalysisKeeps a b) (h' : AnalysisKeeps b c) : AnalysisKeeps a c := by
  refine ⟨?_, h.log.trans h'.log⟩
  rw [h'.frame, h.frame]

theorem analysisKeeps_setStatus (ch : Channel) (bank row : Nat) (st : RecStatus) (x : Option Nat) (remap : List RemapEntry)
    (causes : Causes) (analyser : Option Analysis) :
    AnalysisKeeps ch { ch with log := ch.log.setStatus bank row st x, remap := remap, seq := { ch.seq with causes := causes },
                               analyser := analyser } :=
  ⟨rfl, restatused_setStatus ..⟩

theorem AnalysisKeeps.analyser {a b : Channel} (h : AnalysisKeeps a b) (x : Option Analysis) :
    AnalysisKeeps a { b with analyser := x } := ⟨by rw [h.frame], h.log⟩

/-- The context stands, but for its progress. -/
def Analysis.SameContext (a b : Analysis) : Prop :=
  b = { a with phase := b.phase, candidates := b.candidates, given := b.given }

/-- Beside the frame, the context stands. -/
def PassKeeps (a0 : Analysis) (ch0 : Channel) (_ : List Nat) (a : Analysis) (ch : Channel) : Prop :=
  a0.SameContext a ∧ AnalysisKeeps ch0 ch

theorem treatable_passKeeps (a0 : Analysis) (ch0 : Channel) : Treatable (PassKeeps a0 ch0) where
  spare _ _ h := ⟨by rw [Analysis.SameContext, h.1], h.2.trans (analysisKeeps_setStatus ..)⟩
  unrepairable h := ⟨h.1, h.2.trans (analysisKeeps_setStatus ..)⟩
  marginal h := ⟨h.1, h.2.trans (analysisKeeps_setStatus ..)⟩
  refill h := h

/-- The passes leave an analyser of the same context, and of the channel all but what an analysis works on. -/
theorem primaryPass_keeps (rows : List Nat) (a : Analysis) (ch : Channel) :
    AnalysisKeeps ch (primaryPass rows a ch) ∧ ∃ a', (primaryPass rows a ch).analyser = some a' ∧ a.SameContext a' := by
  obtain ⟨a', ch', rows', ⟨hsame, hkeeps⟩, ⟨-, -, heq⟩ | ⟨-, heq⟩⟩ :=
    (treatable_passKeeps a ch).primaryPass rows a ch ⟨rfl, .refl ch⟩
  · rw [heq]
    exact ⟨hkeeps.analyser _, _, rfl, by rw [Analysis.SameContext, hsame]⟩
  · rw [heq]
    exact ⟨hkeeps.analyser _, _, rfl, by rw [Analysis.SameContext, hsame]⟩

theorem beginAnalysis_keeps (ch : Channel) (bank : Nat) (complete : Bool) (cap : Nat) :
    AnalysisKeeps ch (ch.beginAnalysis bank complete cap) ∧ ∃ a, (ch.beginAnalysis bank complete cap).analyser = some a ∧
      (ch.analysisContext bank complete cap).SameContext a := by
  unfold Channel.beginAnalysis
  dsimp only
  split
  · exact ⟨⟨rfl, restatused_faultBank ..⟩, _, rfl, rfl⟩
  · exact primaryPass_keeps ..

end Sys2Proof.Machine
end

section
/-! What an analysis keeps of R72, R73 and R78 while it works: each treated candidate adds its one remap entry, spends a
spare that is free, and a claim waits only below the cap. -/

namespace Sys2Proof.Machine

/-! ### A record's status and its remap entry (R63, R72) -/

/-- The row of a PENDING record of the bank (R49). -/
def FailLog.Pending (l : FailLog) (bank row : Nat) : Prop :=
  ∃ r ∈ l.records, r.bank = bank ∧ r.row = row ∧ r.status = .pending

theorem FailLog.Pending.setStatus_ne {l : FailLog} {bank row row' : Nat} (st : RecStatus) (x : Option Nat)
    (h : l.Pending bank row') (hne : row' ≠ row) : (l.setStatus bank row st x).Pending bank row' := by
  obtain ⟨r, hr, hb, rfl, hp⟩ := h
  refine ⟨r, List.mem_map.mpr ⟨r, hr, ?_⟩, hb, rfl, hp⟩
  simp [hne]

theorem setStatus_eq_of_no_key {records : List FailRecord} {bank row : Nat} (st : RecStatus) (x : Option Nat)
    (h : (bank, row) ∉ records.map fun r => (r.bank, r.row)) :
    records.map (fun r => if r.hasKey bank row then { r with status := st, target := x } else r) = records := by
  refine (List.map_congr_left fun r hr => ?_).trans (List.map_id _)
  rw [if_neg]
  · rfl
  · rw [hasKey_iff]
    rintro ⟨rfl, rfl⟩
    exact h (List.mem_map_of_mem hr)

theorem entry_of_pending {r : FailRecord} (h : r.status = .pending) : r.entry = none := by
  simp [FailRecord.entry, h]

/-- A PENDING record's status is written: the entries gain just the one its new status stands for. -/
theorem filterMap_entry_setStatus {l : FailLog} (hkeys : (l.records.map fun r => (r.bank, r.row)).Nodup) {bank row : Nat}
    (hp : l.Pending bank row) {st : RecStatus} {x : Option Nat} {e : Option RemapEntry}
    (he : ∀ r : FailRecord, r.bank = bank → r.row = row → ({ r with status := st, target := x } : FailRecord).entry = e) :
    ((l.setStatus bank row st x).records.filterMap FailRecord.entry).Perm
      (l.records.filterMap FailRecord.entry ++ e.toList) := by
  obtain ⟨records, _⟩ := l
  obtain ⟨r, hr, hb, hrow, hst⟩ := hp
  simp only [FailLog.setStatus] at hkeys hr ⊢
  induction records with
  | nil => cases hr
  | cons q qs ih =>
    obtain ⟨hq, hqs⟩ := List.nodup_cons.mp hkeys
    rw [List.map_cons]
    rcases List.mem_cons.mp hr with rfl | hr
    · rw [if_pos ((hasKey_iff ..).mpr ⟨hb, hrow⟩), setStatus_eq_of_no_key st x (by simpa [hb, hrow] using hq),
        List.filterMap_cons_none (entry_of_pending hst)]
      refine List.Perm.trans ?_ List.perm_append_comm
      cases e with
      | none => rw [List.filterMap_cons_none (he r hb hrow)]; exact .refl _
      | some e => rw [List.filterMap_cons_some (he r hb hrow)]; exact .refl _
    · have hne : ¬q.hasKey bank row = true := by
        rw [hasKey_iff]
        rintro ⟨hqb, hqr⟩
        exact hq (List.mem_map.mpr ⟨r, hr, by simp only [hb, hrow, hqb, hqr]⟩)
      rw [if_neg hne]
      cases hqe : q.entry with
      | none => rw [List.filterMap_cons_none hqe, List.filterMap_cons_none hqe]; exact ih hqs hr
      | some y =>
        rw [List.filterMap_cons_some hqe, List.filterMap_cons_some hqe]
        exact (ih hqs hr).cons y

/-! ### The entries of a table -/

theorem sparesOf_append_spare (t : List RemapEntry) (bank row k : Nat) :
    sparesOf (t ++ [{ bank := bank, row := row, target := .spare k }]) = sparesOf t ++ [(bank, k)] := by
  simp [sparesOf]

theorem sparesOf_append_shadow (t : List RemapEntry) (bank row e : Nat) :
    sparesOf (t ++ [{ bank := bank, row := row, target := .shadow e }]) = sparesOf t := by
  simp [sparesOf]

theorem mem_sparesOf {t : List RemapEntry} {x : Nat × Nat} (h : x ∈ sparesOf t) :
    ∃ e ∈ t, e.bank = x.1 ∧ e.target = .spare x.2 := by
  obtain ⟨e, he, hx⟩ := List.mem_filterMap.mp h
  cases ht : e.target with
  | spare k =>
    simp only [ht] at hx
    obtain rfl := Option.some.inj hx
    exact ⟨e, he, rfl, ht⟩
  | shadow n => simp [ht] at hx

/-- The SHADOW entries of a table. -/
def shadowEntriesOf (t : List RemapEntry) : List RemapEntry := t.filter fun e => e.target.isShadow

theorem heldEntries_eq (t : List RemapEntry) : heldEntries t = (shadowEntriesOf t).length := rfl

theorem namesOf_eq (t : List RemapEntry) (e : Nat) :
    namesOf t e = ((shadowEntriesOf t).filter fun x => x.target = .shadow e).length := by
  rw [namesOf, shadowEntriesOf, List.filter_filter]
  congr 2
  funext x
  cases h : x.target <;> simp [Target.isShadow]

theorem shadowEntriesOf_append_spare (t : List RemapEntry) (bank row k : Nat) :
    shadowEntriesOf (t ++ [{ bank := bank, row := row, target := .spare k }]) = shadowEntriesOf t := by
  simp [shadowEntriesOf, Target.isShadow]

theorem shadowEntriesOf_append_shadow (t : List RemapEntry) (bank row e : Nat) :
    shadowEntriesOf (t ++ [{ bank := bank, row := row, target := .shadow e }]) =
      shadowEntriesOf t ++ [{ bank := bank, row := row, target := .shadow e }] := by
  simp [shadowEntriesOf, Target.isShadow]

/-! ### While the analysis works -/

/-- The laws of the Remap Table while candidates are treated: the rows still to be treated are PENDING, the entries are
those of the REPAIRED records, and every spare given out is a good one of a bank up to this. -/
structure Working (rows : List Nat) (a : Analysis) (ch : Channel) : Prop where
  keys : (ch.log.records.map fun r => (r.bank, r.row)).Nodup
  repairs : ch.remap.Perm (ch.log.records.filterMap FailRecord.entry)
  rows_nodup : rows.Nodup
  pending : ∀ row ∈ rows, ch.log.Pending a.bank row
  spares : (sparesOf ch.remap).Nodup
  unfailed : ∀ x ∈ sparesOf ch.remap, x ∉ ch.log.failedSpares
  banks : ∀ e ∈ ch.remap, e.bank ≤ a.bank
  given : ∀ x ∈ sparesOf ch.remap, x.1 = a.bank → x.2 ∈ a.given

section
variable {row : Nat} {rest : List Nat} {a : Analysis} {ch : Channel}

theorem Working.pending_rest (h : Working (row :: rest) a ch) (st : RecStatus) (x : Option Nat) :
    ∀ row' ∈ rest, (ch.log.setStatus a.bank row st x).Pending a.bank row' := fun row' hrow' =>
  FailLog.Pending.setStatus_ne st x (h.pending row' (List.mem_cons_of_mem _ hrow'))
    fun e => (List.nodup_cons.mp h.rows_nodup).1 (e ▸ hrow')

theorem Working.setStatus_keys (h : Working (row :: rest) a ch) (st : RecStatus) (x : Option Nat) :
    ((ch.log.setStatus a.bank row st x).records.map fun r => (r.bank, r.row)).Nodup := by
  rw [Machine.setStatus_keys]; exact h.keys

/-- A candidate that is not repaired leaves the table. -/
theorem Working.unrepaired (h : Working (row :: rest) a ch) {st : RecStatus}
    (hst : ∀ r : FailRecord, ({ r with status := st, target := none } : FailRecord).entry = none) (seq : Sequencer) :
    Working rest a { ch with log := ch.log.setStatus a.bank row st none, seq := seq } where
  keys := h.setStatus_keys _ _
  repairs := by
    have := filterMap_entry_setStatus h.keys (h.pending row List.mem_cons_self) (st := st) (x := none) (e := none)
      fun r _ _ => hst r
    rw [Option.toList_none, List.append_nil] at this
    exact h.repairs.trans this.symm
  rows_nodup := (List.nodup_cons.mp h.rows_nodup).2
  pending := h.pending_rest _ _
  spares := h.spares
  unfailed := h.unfailed
  banks := h.banks
  given := h.given

theorem Working.repaired (h : Working (row :: rest) a ch) {st : RecStatus} {x : Option Nat} {e : RemapEntry}
    (he : ∀ r : FailRecord, r.bank = a.bank → r.row = row →
      ({ r with status := st, target := x } : FailRecord).entry = some e) :
    (ch.remap ++ [e]).Perm ((ch.log.setStatus a.bank row st x).records.filterMap FailRecord.entry) :=
  (h.repairs.append_right [e]).trans (filterMap_entry_setStatus h.keys (h.pending row List.mem_cons_self) he).symm

theorem Working.repairSpare (h : Working (row :: rest) a ch) {k : Nat} (hk : a.goodSpare ch.log ch.spares = some k) :
    Working rest { a with given := k :: a.given } (ch.repairSpare a.bank row k) := by
  obtain ⟨⟨-, hgood, hfree⟩, -⟩ := (goodSpare_eq_some_iff ..).mp hk
  have hnew : (a.bank, k) ∉ sparesOf ch.remap := fun hm => hfree (h.given _ hm rfl)
  refine ⟨h.setStatus_keys _ _, h.repaired ?_, (List.nodup_cons.mp h.rows_nodup).2, h.pending_rest _ _, ?_, ?_, ?_, ?_⟩
  · exact fun r hb hr => by simp [FailRecord.entry, hb, hr]
  · rw [repairSpare_remap, sparesOf_append_spare]
    refine h.spares.append (List.nodup_singleton _) fun x hx hx' => ?_
    exact hnew (List.mem_singleton.mp hx' ▸ hx)
  · rw [repairSpare_remap, sparesOf_append_spare]
    intro x hx
    rcases List.mem_append.mp hx with hx | hx
    · exact h.unfailed x hx
    · exact List.mem_singleton.mp hx ▸ hgood
  · rw [repairSpare_remap]
    intro e he
    rcases List.mem_append.mp he with he | he
    · exact h.banks e he
    · exact List.mem_singleton.mp he ▸ le_rfl
  · rw [repairSpare_remap, sparesOf_append_spare]
    intro x hx hb
    rcases List.mem_append.mp hx with hx | hx
    · exact List.mem_cons_of_mem _ (h.given x hx hb)
    · exact List.mem_singleton.mp hx ▸ List.mem_cons_self

theorem Working.repairShadow (h : Working (row :: rest) a ch) (e : Nat) :
    Working rest a (ch.repairShadow a.bank row e) := by
  refine ⟨h.setStatus_keys _ _, h.repaired ?_, (List.nodup_cons.mp h.rows_nodup).2, h.pending_rest _ _, ?_, ?_, ?_, ?_⟩
  · exact fun r hb hr => by simp [FailRecord.entry, hb, hr]
  · rw [repairShadow_remap, sparesOf_append_shadow]; exact h.spares
  · rw [repairShadow_remap, sparesOf_append_shadow]; exact h.unfailed
  · rw [repairShadow_remap]
    intro x hx
    rcases List.mem_append.mp hx with hx | hx
    · exact h.banks x hx
    · exact List.mem_singleton.mp hx ▸ le_rfl
  · rw [repairShadow_remap, sparesOf_append_shadow]; exact h.given

end

/-- The rows of a list of records of one bank are distinct, keys being so (R38). -/
theorem rows_nodup_of_keys {records : List FailRecord} (hkeys : (records.map fun r => (r.bank, r.row)).Nodup)
    {bank : Nat} (l : List FailRecord) (hsub : l.Sublist records) (hbank : ∀ r ∈ l, r.bank = bank) :
    (l.map FailRecord.row).Nodup := by
  have hl : (l.map fun r => (r.bank, r.row)).Nodup := hkeys.sublist (hsub.map _)
  have heq : l.map (fun r => (r.bank, r.row)) = (l.map FailRecord.row).map (Prod.mk bank) := by
    rw [List.map_map]
    exact List.map_congr_left fun r hr => by simp [hbank r hr]
  exact List.Nodup.of_map _ (heq ▸ hl)

theorem mem_pendingOf {l : FailLog} {bank : Nat} {r : FailRecord} :
    r ∈ l.pendingOf bank ↔ r ∈ l.records ∧ r.bank = bank ∧ r.status = .pending := by
  simp [FailLog.pendingOf]

/-- Candidates picked from the PENDING records of a bank are distinct PENDING rows. -/
theorem candidates_pending {l : FailLog} (hkeys : (l.records.map fun r => (r.bank, r.row)).Nodup) (bank : Nat)
    (p : FailRecord → Bool) :
    ((byCount ((l.pendingOf bank).filter p)).map FailRecord.row).Nodup ∧
      ∀ row ∈ (byCount ((l.pendingOf bank).filter p)).map FailRecord.row, l.Pending bank row := by
  have hperm := (byCount_perm ((l.pendingOf bank).filter p)).map FailRecord.row
  refine ⟨hperm.nodup_iff.mpr ?_, fun row hrow => ?_⟩
  · refine rows_nodup_of_keys hkeys (bank := bank) _ (List.filter_sublist.trans List.filter_sublist) fun r hr => ?_
    exact (mem_pendingOf.mp (List.mem_of_mem_filter hr)).2.1
  · obtain ⟨r, hr, rfl⟩ := List.mem_map.mp (hperm.mem_iff.mp hrow)
    obtain ⟨hr, hb, hs⟩ := mem_pendingOf.mp (List.mem_of_mem_filter hr)
    exact ⟨r, hr, hb, rfl, hs⟩

theorem marginalRows_pending {ch : Channel} (hkeys : (ch.log.records.map fun r => (r.bank, r.row)).Nodup) (bank : Nat) :
    (ch.marginalRows bank).Nodup ∧ ∀ row ∈ ch.marginalRows bank, ch.log.Pending bank row := by
  have := candidates_pending hkeys bank fun _ => true
  rwa [List.filter_true] at this

theorem treatable_working : Treatable Working where
  spare _ hk h := h.repairSpare hk
  unrepairable h := h.unrepaired (fun _ => rfl) _
  marginal h := h.unrepaired (fun _ => rfl) _
  refill h := { h with rows_nodup := (marginalRows_pending h.keys _).1, pending := (marginalRows_pending h.keys _).2 }

/-- Spares alone join the table while candidates are treated. -/
theorem treatable_shadowEntries (t : List RemapEntry) : Treatable fun _ _ ch => shadowEntriesOf ch.remap = t where
  spare _ _ h := by rw [repairSpare_remap, shadowEntriesOf_append_spare, h]
  unrepairable h := h
  marginal h := h
  refill h := h

theorem primaryPass_shadowEntries (rows : List Nat) (a : Analysis) (ch : Channel) :
    shadowEntriesOf (primaryPass rows a ch).remap = shadowEntriesOf ch.remap ∧
      ∀ a', (primaryPass rows a ch).analyser = some a' → a'.phase = .claiming → heldEntries ch.remap < a'.cap := by
  obtain ⟨a', ch', rows', h, ⟨-, hroom, heq⟩ | ⟨-, heq⟩⟩ :=
    (treatable_shadowEntries (shadowEntriesOf ch.remap)).primaryPass rows a ch rfl
  · rw [heq]
    refine ⟨h, fun a'' ha _ => ?_⟩
    obtain rfl := Option.some.inj ha
    rwa [heldEntries_eq, h, ← heldEntries_eq] at hroom
  · rw [heq]
    refine ⟨h, fun a'' ha hphase => ?_⟩
    obtain rfl := Option.some.inj ha
    exact absurd hphase (by simp)

theorem beginAnalysis_shadowEntries (ch : Channel) (bank : Nat) (complete : Bool) (cap : Nat) :
    shadowEntriesOf (ch.beginAnalysis bank complete cap).remap = shadowEntriesOf ch.remap ∧
      ∀ a, (ch.beginAnalysis bank complete cap).analyser = some a → a.phase = .claiming → heldEntries ch.remap < a.cap := by
  unfold Channel.beginAnalysis
  dsimp only
  split
  · refine ⟨rfl, fun a ha hphase => ?_⟩
    obtain rfl := Option.some.inj ha
    exact absurd hphase (by simp)
  · exact primaryPass_shadowEntries ..

end Sys2Proof.Machine
end

section
/-! What a command can do to one channel, said once: `ChanMove` lists the moves, with what the meanings check before they
make them. Each law of a channel is kept by every move. -/

namespace Sys2Proof.Machine

/-! ### The laws of one channel -/

/-- R88's law of one channel: its blocks' work belongs to its sequencer's state. -/
structure Channel.Orderly (ch : Channel) : Prop where
  march : ch.march.isSome = true → ch.seq.state = .testing
  analyser : ch.analyser.isSome = true → ch.seq.state = .analysing
  ident : ch.seq.ident ≠ .idle → ch.seq.state = .identifying
  supplyWait : ch.seq.supplyWait = true → ch.seq.state = .powering

/-- The states before a geometry is taken (R94). -/
def SeqState.early (x : SeqState) : Prop := x = .powering ∨ x = .identifying ∨ x = .selecting

/-- R37's law of one channel's hidden rows. -/
structure Channel.VisibleOk (ch : Channel) : Prop where
  rows : ∀ r ∈ ch.log.records, ∃ g, ch.geometry = some g ∧ r.row < g.visibleRows
  early : ch.seq.state.early → ch.log.records = []

/-- R72's law of one channel. -/
structure Channel.RepairOk (ch : Channel) : Prop where
  repairs : ch.remap.Perm (ch.log.records.filterMap FailRecord.entry)
  claiming : ∀ a, ch.analyser = some a → a.phase = .claiming →
    a.candidates.Nodup ∧ ∀ row ∈ a.candidates, ch.log.Pending a.bank row

/-- R73's law of one channel. -/
structure Channel.SpareOk (ch : Channel) : Prop where
  spares : (sparesOf ch.remap).Nodup
  unfailed : ∀ x ∈ sparesOf ch.remap, x ∉ ch.log.failedSpares
  behind : ch.seq.state = .queued ∨ ch.seq.state = .testing → ∀ e ∈ ch.remap, e.bank < ch.seq.nextBank
  march : ∀ m, ch.march = some m → m.bank = ch.seq.nextBank
  analyser : ∀ a, ch.analyser = some a → a.bank = ch.seq.nextBank ∧ (∀ e ∈ ch.remap, e.bank ≤ a.bank) ∧
    ∀ x ∈ sparesOf ch.remap, x.1 = a.bank → x.2 ∈ a.given
  early : ch.seq.state.early → ch.remap = []

/-- R78's law of one channel under a cap. -/
structure Channel.CapOk (cap : Nat) (loading : Prop) (ch : Channel) : Prop where
  held : heldEntries ch.remap ≤ cap
  analyser : ∀ a, ch.analyser = some a → a.cap = cap ∧ (a.phase = .claiming → heldEntries ch.remap < a.cap)
  loading : loading → ch.remap = [] ∧ ch.seq.state ≠ .queued ∧ ch.seq.state ≠ .testing ∧ ch.seq.state ≠ .analysing

/-- R137's and R141's laws of a port, its channel being in state `x`. -/
structure CreditOk (x : SeqState) (p : Port) : Prop where
  opened : x = .opened → p.credit + p.queue.length = 16
  draining : x = .draining → p.credit + p.queue.length ≤ 16
  closed : x ≠ .opened → x ≠ .draining → x ≠ .closing → p.queue = []
  service : p.service.isSome = true → p.queue ≠ []

/-- R147's law of a port. -/
def DetectorOk (strap : BitVec 8) (x : SeqState) (p : Port) : Prop :=
  p.detector ≠ .idle → x = .opened ∧ strapEscapes strap = true

/-- R26's law of one channel. -/
structure Channel.RefreshOk (ch : Channel) : Prop where
  withheld : ch.ds.refreshWithheld = ch.pausing
  quiet : ch.pausing = true → ch.ds.ops.any DsOp.isLiveSweep = false

theorem visibleLaw_iff (s : State) : VisibleLaw s ↔ ∀ c, (s.chan c).VisibleOk :=
  forall_congr' fun _ => ⟨fun h => ⟨h.1, h.2⟩, fun h => ⟨h.1, h.2⟩⟩

theorem repairLaw_iff (s : State) : RepairLaw s ↔ ∀ c, (s.chan c).RepairOk :=
  forall_congr' fun _ => ⟨fun h => ⟨h.1, h.2⟩, fun h => ⟨h.1, h.2⟩⟩

theorem spareLaw_iff (s : State) : SpareLaw s ↔ ∀ c, (s.chan c).SpareOk :=
  forall_congr' fun _ => ⟨fun ⟨h1, h2, h3, h4, h5, h6⟩ => ⟨h1, h2, h3, h4, h5, h6⟩,
    fun h => ⟨h.1, h.2, h.3, h.4, h.5, h.6⟩⟩

theorem capLaw_iff (s : State) : CapLaw s ↔ ∀ c, (s.chan c).CapOk s.shadow.cap (s.loader.state = .loading) :=
  ⟨fun ⟨h1, h2, h3⟩ c => ⟨h1 c, h2 c, fun h => h3 h c⟩,
    fun h => ⟨fun c => (h c).1, fun c => (h c).2, fun hl c => (h c).3 hl⟩⟩

theorem creditLaw_iff (s : State) : CreditLaw s ↔ ∀ c, CreditOk (s.seqState c) (s.chan c).port :=
  forall_congr' fun _ => ⟨fun ⟨h1, h2, h3, h4⟩ => ⟨h1, h2, h3, h4⟩, fun h => ⟨h.1, h.2, h.3, h.4⟩⟩

theorem detectorLaw_iff (s : State) : DetectorLaw s ↔ ∀ c, DetectorOk s.strap (s.seqState c) (s.chan c).port := Iff.rfl

theorem refreshLaw_iff (s : State) : RefreshLaw s ↔ ∀ c, (s.chan c).RefreshOk :=
  forall_congr' fun _ => ⟨fun h => ⟨h.1, h.2⟩, fun h => ⟨h.1, h.2⟩⟩

/-! ### The moves -/

/-- What the moves of a channel lean on beside the channel: the strap word, the cap, whether the loader is LOADING, and
whether R26's law held when the step began. -/
structure Setting where
  strap : BitVec 8
  cap : Nat
  loading : Prop
  steady : Prop

/-- A Downstream Sequencer's withholding stands, and no live sweep operation joins it. -/
def StreamKept (a b : Downstream) : Prop :=
  b.refreshWithheld = a.refreshWithheld ∧ (b.ops.any DsOp.isLiveSweep = true → a.ops.any DsOp.isLiveSweep = true)

/-- A Fail Log stands, or has taken one event of the bank on a channel with geometry `g`. -/
def LogGrows (g : Option Geometry) (bank : Nat) (l l' : FailLog) : Prop :=
  l' = l ∨ ∃ geo ev, g = some geo ∧ ev.bank = bank ∧ ev.columns ≠ [] ∧ ev.columns.Nodup ∧
    l' = (l.take geo.visibleRows ev).1

/-- What a command can do to a channel in one move. -/
inductive ChanMove (e : Setting) (a : Channel) : Channel → Prop
  /-- The supply-good input follows the board. -/
  | supply (good : Bool) : ChanMove e a { a with supplyGood := good }
  /-- Requests, report writes and completions, in one state. -/
  | traffic (p : Port) (d : Downstream) (credit : CreditOk a.seq.state a.port → CreditOk a.seq.state p)
      (detector : DetectorOk e.strap a.seq.state a.port → DetectorOk e.strap a.seq.state p) (stream : StreamKept a.ds d) :
      ChanMove e a { a with port := p, ds := d }
  /-- The budget timer. -/
  | clock (t : Timer) (expired : Bool) : ChanMove e a { a with seq := { a.seq with timer := t, budgetExpired := expired } }
  /-- Supply wait, identity read and width check. -/
  | bringUp (q : Sequencer) (d : Downstream) (source : a.seq.state.early) (target : q.state.early)
      (ident : q.ident ≠ .idle → q.state = .identifying) (wait : q.supplyWait = true → q.state = .powering)
      (stream : StreamKept a.ds d) : ChanMove e a { a with seq := q, ds := d }
  /-- The geometry of a selection. -/
  | take (g : Option Geometry) (q : Sequencer) (source : a.seq.state = .selecting) (target : q.state = .selecting)
      (ident : q.ident = a.seq.ident) (wait : q.supplyWait = a.seq.supplyWait) :
      ChanMove e a { a with geometry := g, seq := q }
  /-- The end of bring-up and testing: FAILED, ABSENT or DONE. -/
  | leave (q : Sequencer) (d : Downstream)
      (source : a.seq.state ∈ [SeqState.powering, .identifying, .selecting, .queued, .testing, .analysing, .done])
      (target : q.state ∈ [SeqState.failed, .absent, .done]) (ident : q.ident = .idle) (wait : q.supplyWait = false)
      (refresh : d.refreshWithheld = false ∨ a.seq.state ≠ .testing ∧ d.refreshWithheld = a.ds.refreshWithheld) :
      ChanMove e a { a with seq := q, march := none, analyser := none, ds := d }
  /-- A request for a slot, after a selection or an analysis. -/
  | enqueue (bank : Nat) (source : a.seq.state = .selecting ∧ ¬e.loading ∨
        ∃ w, a.analyser = some w ∧ w.phase ≠ .claiming ∧ bank = w.bank + 1) :
      ChanMove e a { a with seq := { a.seq with state := .queued, nextBank := bank }, analyser := none }
  /-- A slot: a sweep of the next bank. -/
  | grant (m : Option Sweep) (d : Downstream) (entered : List Nat) (source : a.seq.state = .queued)
      (fresh : ∀ x, m = some x → x.bank = a.seq.nextBank ∧ x.pause = none)
      (refresh : d.refreshWithheld = a.ds.refreshWithheld) :
      ChanMove e a { a with seq := { a.seq with state := .testing, entered := entered }, march := m, ds := d }
  /-- A sweep goes on. -/
  | sweep (m m' : Sweep) (l : FailLog) (d : Downstream) (source : a.march = some m) (bank : m'.bank = m.bank)
      (log : LogGrows a.geometry m.bank a.log l)
      (refresh : e.steady → a.RefreshOk → ({ a with march := some m', log := l, ds := d } : Channel).RefreshOk) :
      ChanMove e a { a with march := some m', log := l, ds := d }
  /-- A sweep ends, and its bank is analysed. -/
  | analyse (q : Sequencer) (d : Downstream) (bank : Nat) (complete : Bool) (source : a.seq.state = .testing)
      (sweep : bank = a.seq.nextBank ∨ ∃ m, a.march = some m ∧ bank = m.bank)
      (target : q.state = .analysing ∧ q.nextBank = a.seq.nextBank ∧ q.ident = a.seq.ident ∧
        q.supplyWait = a.seq.supplyWait)
      (refresh : e.steady → a.RefreshOk → d.refreshWithheld = false) :
      ChanMove e a (({ a with march := none, seq := q, ds := d } : Channel).beginAnalysis bank complete e.cap)
  /-- A shadow claim is granted. -/
  | claim (w : Analysis) (row : Nat) (rest : List Nat) (entry : Nat) (source : a.analyser = some w)
      (phase : w.phase = .claiming) (front : w.candidates = row :: rest) :
      ChanMove e a (primaryPass rest { w with phase := .primary } (a.repairShadow w.bank row entry))
  /-- A shadow claim is refused. -/
  | refuse (w : Analysis) (row : Nat) (rest : List Nat) (source : a.analyser = some w)
      (phase : w.phase = .claiming) (front : w.candidates = row :: rest) :
      ChanMove e a (primaryPass rest { w with phase := .primary } (a.markUnrepairable w.bank row))
  /-- A retest begins. -/
  | retest (q : Sequencer) (p : Port) (d : Downstream) (source : a.seq.state = .draining) (target : q.state = .identifying)
      (wait : q.supplyWait = false) (queue : p.queue = []) (service : p.service = a.port.service)
      (detector : p.detector = a.port.detector) (empty : a.port.queue = []) (stream : StreamKept a.ds d) :
      ChanMove e a { a with seq := q, geometry := none, remap := [], log := FailLog.empty, port := p, ds := d }
  /-- Opening, draining and closing. -/
  | shift (q : Sequencer) (p : Port) (d : Downstream)
      (source : a.seq.state ∈ [SeqState.done, .opened, .draining, .closing])
      (target : q.state ∈ [SeqState.opened, .draining, .closing, .failed])
      (ident : q.ident = a.seq.ident) (wait : q.supplyWait = a.seq.supplyWait)
      (credit : CreditOk a.seq.state a.port → CreditOk q.state p)
      (detector : DetectorOk e.strap a.seq.state a.port → DetectorOk e.strap q.state p) (stream : StreamKept a.ds d) :
      ChanMove e a { a with seq := q, port := p, ds := d }

/-! ### Every move keeps each law -/

section
variable {e : Setting} {a b : Channel}

theorem Channel.Orderly.march_none (h : a.Orderly) (hx : a.seq.state ≠ .testing) : a.march = none := by
  by_contra hm
  exact hx (h.march (Option.isSome_iff_ne_none.mpr hm))

theorem Channel.Orderly.analyser_none (h : a.Orderly) (hx : a.seq.state ≠ .analysing) : a.analyser = none := by
  by_contra hm
  exact hx (h.analyser (Option.isSome_iff_ne_none.mpr hm))

theorem Channel.Orderly.ident_idle (h : a.Orderly) (hx : a.seq.state ≠ .identifying) : a.seq.ident = .idle := by
  by_contra hm
  exact hx (h.ident hm)

theorem Channel.Orderly.wait_false (h : a.Orderly) (hx : a.seq.state ≠ .powering) : a.seq.supplyWait = false := by
  by_contra hm
  exact hx (h.supplyWait (by simpa using hm))

/-- A channel without work keeps R88's law in any state. -/
theorem Channel.orderly_of_idle {ch : Channel} (hm : ch.march = none) (ha : ch.analyser = none)
    (hi : ch.seq.ident ≠ .idle → ch.seq.state = .identifying) (hw : ch.seq.supplyWait = true → ch.seq.state = .powering) :
    ch.Orderly := ⟨by simp [hm], by simp [ha], hi, hw⟩

theorem SeqState.early.not_testing {x : SeqState} (h : x.early) : x ≠ .testing := by
  rcases h with rfl | rfl | rfl <;> decide

theorem SeqState.early.not_analysing {x : SeqState} (h : x.early) : x ≠ .analysing := by
  rcases h with rfl | rfl | rfl <;> decide

theorem ChanMove.orderly (h : ChanMove e a b) (ha : a.Orderly) : b.Orderly := by
  have idle {q : Sequencer} (hi : q.ident = a.seq.ident) (hw : q.supplyWait = a.seq.supplyWait)
      (h1 : a.seq.state ≠ .identifying) (h2 : a.seq.state ≠ .powering) :
      (q.ident ≠ .idle → q.state = .identifying) ∧ (q.supplyWait = true → q.state = .powering) :=
    ⟨fun hq => absurd (hi.trans (ha.ident_idle h1)) hq, fun hq => by simp [hw, ha.wait_false h2] at hq⟩
  cases h with
  | supply | traffic | clock => exact ⟨ha.march, ha.analyser, ha.ident, ha.supplyWait⟩
  | sweep m m' l d source => exact ⟨fun _ => ha.march (by simp [source]), ha.analyser, ha.ident, ha.supplyWait⟩
  | bringUp q d source target ident wait =>
    exact Channel.orderly_of_idle (ha.march_none source.not_testing) (ha.analyser_none source.not_analysing) ident wait
  | take g q source target ident wait =>
    obtain ⟨hi, hw⟩ := idle ident wait (by simp [source]) (by simp [source])
    exact Channel.orderly_of_idle (ha.march_none (by simp [source])) (ha.analyser_none (by simp [source])) hi hw
  | leave q d source target ident wait =>
    exact Channel.orderly_of_idle rfl rfl (fun h => absurd ident h) (fun h => by simp [wait] at h)
  | enqueue bank source =>
    have hx : a.seq.state = .selecting ∨ a.seq.state = .analysing :=
      source.imp And.left fun ⟨w, hw, _⟩ => ha.analyser (by simp [hw])
    have : a.seq.state ≠ .testing ∧ a.seq.state ≠ .identifying ∧ a.seq.state ≠ .powering := by
      rcases hx with hx | hx <;> simp [hx]
    exact Channel.orderly_of_idle (ha.march_none this.1) rfl (fun h => absurd (ha.ident_idle this.2.1) h)
      (fun h => by simp [ha.wait_false this.2.2] at h)
  | grant m d entered source =>
    refine ⟨fun _ => rfl, fun h => ?_, fun h => ?_, fun h => ?_⟩
    · simp [ha.analyser_none (by simp [source])] at h
    · exact absurd (ha.ident_idle (by simp [source])) h
    · simp [ha.wait_false (by simp [source])] at h
  | analyse q d bank complete source sweep target =>
    obtain ⟨hkeeps, w, hw, -⟩ := beginAnalysis_keeps { a with march := none, seq := q, ds := d } bank complete e.cap
    rw [hkeeps.frame]
    refine ⟨nofun, fun _ => target.1, fun h => ?_, fun h => ?_⟩
    · exact absurd (target.2.2.1.trans (ha.ident_idle (by simp [source]))) h
    · simp [target.2.2.2, ha.wait_false (show a.seq.state ≠ .powering by simp [source])] at h
  | claim w row rest entry source =>
    have hx : a.seq.state = .analysing := ha.analyser (by simp [source])
    rw [(primaryPass_keeps ..).1.frame]
    exact ⟨ha.march, fun _ => hx, ha.ident, ha.supplyWait⟩
  | refuse w row rest source =>
    have hx : a.seq.state = .analysing := ha.analyser (by simp [source])
    rw [(primaryPass_keeps ..).1.frame]
    exact ⟨ha.march, fun _ => hx, ha.ident, ha.supplyWait⟩
  | retest q p d source target wait =>
    exact Channel.orderly_of_idle (ha.march_none (by simp [source])) (ha.analyser_none (by simp [source]))
      (fun _ => target) (fun h => by simp [wait] at h)
  | shift q p d source target ident wait =>
    obtain ⟨hi, hw⟩ := idle ident wait (ne_of_mem_of_not_mem source (by decide)) (ne_of_mem_of_not_mem source (by decide))
    exact Channel.orderly_of_idle (ha.march_none (ne_of_mem_of_not_mem source (by decide)))
      (ha.analyser_none (ne_of_mem_of_not_mem source (by decide))) hi hw

/-! ### The Fail Log -/

theorem ChanMove.logOk (h : ChanMove e a b) (ha : a.log.Ok) : b.log.Ok := by
  cases h with
  | supply | traffic | clock | bringUp | take | leave | enqueue | grant | shift => exact ha
  | sweep m m' l d source bank log =>
    rcases log with rfl | ⟨g, ev, -, -, hne, hnodup, rfl⟩
    · exact ha
    · exact ha.take g.visibleRows hne hnodup
  | analyse q d bank complete => exact ha.restatused (beginAnalysis_keeps ..).1.log
  | claim w row rest entry =>
    exact ha.restatused ((restatused_setStatus ..).trans (primaryPass_keeps ..).1.log)
  | refuse w row rest => exact ha.restatused ((restatused_setStatus ..).trans (primaryPass_keeps ..).1.log)
  | retest => exact FailLog.empty_ok

/-- Rows below the first hidden one stay so when statuses are written. -/
theorem rows_of_restatused {l l' : FailLog} (h : Restatused l l') {P : Nat → Prop} (hl : ∀ r ∈ l.records, P r.row) :
    ∀ r ∈ l'.records, P r.row := by
  intro r' hr'
  obtain ⟨r, hr, heq⟩ := h.exists_mem hr'
  rw [heq]
  exact hl r hr

theorem take_rows {l : FailLog} {visible : Nat} {ev : FailEvent} (hl : ∀ r ∈ l.records, r.row < visible) :
    ∀ r ∈ (l.take visible ev).1.records, r.row < visible := by
  rcases take_cases l visible ev with ⟨-, ht⟩ | ⟨-, -, ht⟩ | ⟨hrow, -, -, ht⟩ | ⟨-, -, -, ht⟩ <;> rw [ht]
  · rw [addSpare_records]; exact hl
  · intro r' hr'
    obtain ⟨r, hr, rfl⟩ := List.mem_map.mp hr'
    split
    · exact hl r hr
    · exact hl r hr
  · intro r hr
    rcases List.mem_append.mp hr with hr | hr
    · exact hl r hr
    · exact List.mem_singleton.mp hr ▸ hrow
  · exact hl

theorem rows_lt_iff {ch : Channel} {g : Geometry} (h : ch.geometry = some g) :
    (∀ r ∈ ch.log.records, ∃ g, ch.geometry = some g ∧ r.row < g.visibleRows) ↔
      ∀ r ∈ ch.log.records, r.row < g.visibleRows :=
  forall₂_congr fun _ _ => ⟨fun ⟨_, hg', hr⟩ => Option.some.inj (h.symm.trans hg') ▸ hr, fun hr => ⟨g, h, hr⟩⟩

theorem ChanMove.visibleOk (h : ChanMove e a b) (ho : a.Orderly) (ha : a.VisibleOk) : b.VisibleOk := by
  cases h with
  | supply | traffic | clock => exact ⟨ha.rows, ha.early⟩
  | bringUp q d source => exact ⟨ha.rows, fun _ => ha.early source⟩
  | take g q source =>
    have hnil : a.log.records = [] := ha.early (.inr (.inr source))
    exact ⟨by simp [hnil], fun _ => hnil⟩
  | leave q d source target =>
    refine ⟨ha.rows, fun hx => ?_⟩
    rcases hx with hx | hx | hx <;> exact absurd target (by simp [show q.state = _ from hx])
  | enqueue => exact ⟨ha.rows, fun hx => by simp [SeqState.early] at hx⟩
  | grant => exact ⟨ha.rows, fun hx => by simp [SeqState.early] at hx⟩
  | sweep m m' l d source bank log =>
    have hx : a.seq.state = .testing := ho.march (by simp [source])
    refine ⟨?_, fun h => absurd hx h.not_testing⟩
    rcases log with rfl | ⟨g, ev, hg, -, -, -, rfl⟩
    · exact ha.rows
    · exact (rows_lt_iff (ch := { a with march := some m', log := (a.log.take g.visibleRows ev).1, ds := d }) hg).mpr
        (take_rows ((rows_lt_iff hg).mp ha.rows))
  | analyse q d bank complete source sweep target =>
    have hkeeps := (beginAnalysis_keeps { a with march := none, seq := q, ds := d } bank complete e.cap).1
    rw [hkeeps.frame]
    refine ⟨rows_of_restatused (P := fun row => ∃ g, a.geometry = some g ∧ row < g.visibleRows) hkeeps.log ha.rows, fun h => ?_⟩
    exact absurd (show _ = SeqState.analysing from target.1) h.not_analysing
  | claim w row rest entry source =>
    have hkeeps := (primaryPass_keeps rest { w with phase := .primary } (a.repairShadow w.bank row entry)).1
    have hx : a.seq.state = .analysing := ho.analyser (by simp [source])
    rw [hkeeps.frame]
    exact ⟨rows_of_restatused (P := fun row => ∃ g, a.geometry = some g ∧ row < g.visibleRows)
      ((restatused_setStatus ..).trans hkeeps.log) ha.rows, fun h => absurd hx h.not_analysing⟩
  | refuse w row rest source =>
    have hkeeps := (primaryPass_keeps rest { w with phase := .primary } (a.markUnrepairable w.bank row)).1
    have hx : a.seq.state = .analysing := ho.analyser (by simp [source])
    rw [hkeeps.frame]
    exact ⟨rows_of_restatused (P := fun row => ∃ g, a.geometry = some g ∧ row < g.visibleRows)
      ((restatused_setStatus ..).trans hkeeps.log) ha.rows, fun h => absurd hx h.not_analysing⟩
  | retest => exact ⟨by simp [FailLog.empty], fun _ => rfl⟩
  | shift q p d source target =>
    refine ⟨ha.rows, fun hx => ?_⟩
    rcases hx with hx | hx | hx <;> exact absurd target (by simp [show q.state = _ from hx])

end

end Sys2Proof.Machine
end

section
/-! The laws of the Remap Table, the cap, the port and refresh: every move keeps them. -/

namespace Sys2Proof.Machine

/-! ### The Remap Table (R72, R73) -/

theorem Treatable.and {P Q : List Nat → Analysis → Channel → Prop} (hP : Treatable P) (hQ : Treatable Q) :
    Treatable fun rows a ch => P rows a ch ∧ Q rows a ch where
  spare hc hk h := ⟨hP.spare hc hk h.1, hQ.spare hc hk h.2⟩
  unrepairable h := ⟨hP.unrepairable h.1, hQ.unrepairable h.2⟩
  marginal h := ⟨hP.marginal h.1, hQ.marginal h.2⟩
  refill h := ⟨hP.refill h.1, hQ.refill h.2⟩

section
variable {rows : List Nat} {w : Analysis} {ch : Channel}

/-- Where an analysis pauses or ends, R72 and R73 hold. -/
theorem Working.tables (h : Working rows w ch) (hm : ch.march = none) (hx : ch.seq.state = .analysing)
    (hn : w.bank = ch.seq.nextBank) (phase : AnalysisPhase) :
    ({ ch with analyser := some { w with phase := phase, candidates := rows } } : Channel).RepairOk ∧
    ({ ch with analyser := some { w with phase := phase, candidates := rows } } : Channel).SpareOk := by
  refine ⟨⟨h.repairs, fun a ha _ => ?_⟩, ⟨h.spares, h.unfailed, fun hq => ?_, fun m hm' => ?_, fun a ha => ?_, fun he => ?_⟩⟩
  · obtain rfl := Option.some.inj ha
    exact ⟨h.rows_nodup, h.pending⟩
  · simp [hx] at hq
  · simp [hm] at hm'
  · obtain rfl := Option.some.inj ha
    exact ⟨hn, h.banks, h.given⟩
  · exact absurd hx he.not_analysing

theorem Working.primaryPass (h : Working rows w ch) (hm : ch.march = none) (hx : ch.seq.state = .analysing)
    (hn : w.bank = ch.seq.nextBank) : (primaryPass rows w ch).RepairOk ∧ (primaryPass rows w ch).SpareOk := by
  obtain ⟨w', ch', rows', ⟨hw, hsame, hkeeps⟩, ⟨-, -, heq⟩ | ⟨hnil, heq⟩⟩ :=
    (treatable_working.and (treatable_passKeeps w ch)).primaryPass rows w ch ⟨h, rfl, .refl ch⟩
  all_goals
    have hm' : ch'.march = none := by rw [hkeeps.frame]; exact hm
    have hx' : ch'.seq.state = .analysing := by rw [hkeeps.frame]; exact hx
    have hn' : w'.bank = ch'.seq.nextBank := by rw [hkeeps.frame, hsame]; exact hn
  · rw [heq]; exact hw.tables hm' hx' hn' _
  · rw [heq, ← hnil]; exact hw.tables hm' hx' hn' _

end

/-- COLUMN records stand for no remap entry (R56). -/
theorem filterMap_entry_faultBank (l : FailLog) (bank : Nat) :
    (l.faultBank bank).records.filterMap FailRecord.entry = l.records.filterMap FailRecord.entry := by
  simp only [FailLog.faultBank, List.filterMap_map]
  refine List.filterMap_congr fun r _ => ?_
  simp only [Function.comp]
  split
  next h =>
    simp only [Bool.and_eq_true, beq_iff_eq] at h
    exact (entry_of_pending h.2).symm
  next => rfl

theorem filterMap_entry_take (l : FailLog) (visible : Nat) (ev : FailEvent) :
    (l.take visible ev).1.records.filterMap FailRecord.entry = l.records.filterMap FailRecord.entry := by
  rcases take_cases l visible ev with ⟨-, ht⟩ | ⟨-, -, ht⟩ | ⟨-, -, -, ht⟩ | ⟨-, -, -, ht⟩ <;> rw [ht]
  · rw [addSpare_records]
  · rw [List.filterMap_map]
    refine List.filterMap_congr fun r _ => ?_
    simp only [Function.comp]
    split <;> rfl
  · rw [List.filterMap_append]
    exact List.append_nil _

theorem mem_failedSpares_take {l : FailLog} {visible : Nat} {ev : FailEvent} {x : Nat × Nat}
    (h : x ∈ (l.take visible ev).1.failedSpares) : x ∈ l.failedSpares ∨ x.1 = ev.bank := by
  rcases take_cases l visible ev with ⟨-, ht⟩ | ⟨-, -, ht⟩ | ⟨-, -, -, ht⟩ | ⟨-, -, -, ht⟩ <;> rw [ht] at h
  · exact ((mem_addSpare ..).mp h).imp_right fun hx => by rw [hx]
  all_goals exact .inl h

section
variable {e : Setting} {a b : Channel}

theorem Channel.SpareOk.of_idle (h : a.SpareOk) {q : Sequencer} (hq : q.state ≠ .queued) (ht : q.state ≠ .testing)
    (hearly : q.state.early → a.seq.state.early) {g : Option Geometry} {p : Port} {d : Downstream} {s : Bool} :
    Channel.SpareOk { supplyGood := s, seq := q, geometry := g, remap := a.remap, log := a.log, march := none,
                      analyser := none, ds := d, port := p } :=
  ⟨h.spares, h.unfailed, fun hx => absurd hx (by simp [hq, ht]), nofun, nofun, fun hx => h.early (hearly hx)⟩

theorem not_early_of_mem {x : SeqState} {l : List SeqState} (h : x ∈ l)
    (hl : .powering ∉ l ∧ .identifying ∉ l ∧ .selecting ∉ l) : ¬x.early := by
  rintro (rfl | rfl | rfl)
  exacts [hl.1 h, hl.2.1 h, hl.2.2 h]

theorem ChanMove.repairOk_of_none (hr : b.remap = a.remap) (hl : b.log = a.log) (ha : b.analyser = none) (h : a.RepairOk) :
    b.RepairOk := ⟨by rw [hr, hl]; exact h.repairs, by simp [ha]⟩

theorem ChanMove.tables (h : ChanMove e a b) (ho : a.Orderly) (hl : a.log.Ok) (hr : a.RepairOk) (hs : a.SpareOk) :
    b.RepairOk ∧ b.SpareOk := by
  cases h with
  | supply | traffic | clock =>
    exact ⟨⟨hr.repairs, hr.claiming⟩, ⟨hs.spares, hs.unfailed, hs.behind, hs.march, hs.analyser, hs.early⟩⟩
  | bringUp q d source target =>
    have hnone := ho.analyser_none source.not_analysing
    have hq : q.state ≠ .queued := by rcases target with h | h | h <;> simp [h]
    rw [hnone, ho.march_none source.not_testing]
    exact ⟨⟨hr.repairs, by simp⟩, hs.of_idle hq target.not_testing fun _ => source⟩
  | take g q source target =>
    rw [ho.analyser_none (by simp [source]), ho.march_none (by simp [source])]
    exact ⟨⟨hr.repairs, by simp⟩, hs.of_idle (by simp [target]) (by simp [target]) fun _ => .inr (.inr source)⟩
  | leave q d source target =>
    exact ⟨⟨hr.repairs, by simp⟩, hs.of_idle (ne_of_mem_of_not_mem target (by decide))
      (ne_of_mem_of_not_mem target (by decide)) fun h => absurd h (not_early_of_mem target (by decide))⟩
  | enqueue bank source =>
    have hm : a.march = none := by
      rcases source with ⟨hx, -⟩ | ⟨w, hw, -⟩
      · exact ho.march_none (by simp [hx])
      · exact ho.march_none (by simp [ho.analyser (by simp [hw])])
    refine ⟨⟨hr.repairs, by simp⟩, ⟨hs.spares, hs.unfailed, fun _ x hx => ?_, by simp [hm], nofun,
      fun h => by simp [SeqState.early] at h⟩⟩
    rcases source with ⟨hsel, -⟩ | ⟨w, hw, -, rfl⟩
    · simp [hs.early (.inr (.inr hsel))] at hx
    · exact Nat.lt_succ_of_le ((hs.analyser w hw).2.1 x hx)
  | grant m d entered source fresh =>
    rw [ho.analyser_none (by simp [source])]
    exact ⟨⟨hr.repairs, by simp⟩, ⟨hs.spares, hs.unfailed, fun _ => hs.behind (.inl source), fun x hx => (fresh x hx).1,
      nofun, fun h => by simp [SeqState.early] at h⟩⟩
  | sweep m m' l d source bank log =>
    have hx : a.seq.state = .testing := ho.march (by simp [source])
    have hnone : a.analyser = none := ho.analyser_none (by simp [hx])
    have hmarch : ∀ x, some m' = some x → x.bank = a.seq.nextBank := fun x hxe => by
      obtain rfl := Option.some.inj hxe
      rw [bank, hs.march m source]
    rcases log with rfl | ⟨g, ev, -, hev, -, -, rfl⟩
    · exact ⟨⟨hr.repairs, hr.claiming⟩, ⟨hs.spares, hs.unfailed, hs.behind, hmarch, hs.analyser, hs.early⟩⟩
    · refine ⟨⟨by rw [filterMap_entry_take]; exact hr.repairs, by simp [hnone]⟩,
        ⟨hs.spares, fun x hxm hfail => ?_, hs.behind, hmarch, by simp [hnone], hs.early⟩⟩
      rcases mem_failedSpares_take hfail with hfail | hbank
      · exact hs.unfailed x hxm hfail
      · obtain ⟨r, hrm, hrb, -⟩ := mem_sparesOf hxm
        have := hs.behind (.inr hx) r hrm
        have := hs.march m source
        omega
  | analyse q d bank complete source sweep target =>
    have hbank : bank = a.seq.nextBank := sweep.elim id fun ⟨m, hm, hb⟩ => hb.trans (hs.march m hm)
    have hbehind := hs.behind (.inr source)
    have hgiven : ∀ x ∈ sparesOf a.remap, x.1 = bank → x.2 ∈ ([] : List Nat) := fun x hx hb => by
      obtain ⟨r, hrm, hrb, -⟩ := mem_sparesOf hx
      have := hbehind r hrm
      omega
    unfold Channel.beginAnalysis
    dsimp only
    split
    · refine ⟨⟨by rw [filterMap_entry_faultBank]; exact hr.repairs, fun w hw hph => ?_⟩,
        ⟨hs.spares, hs.unfailed, ?_, nofun, fun w hw => ?_, fun h => absurd target.1 h.not_analysing⟩⟩
      · obtain rfl := Option.some.inj hw
        exact absurd hph (by simp)
      · intro h; simp [target.1] at h
      · obtain rfl := Option.some.inj hw
        exact ⟨hbank.trans target.2.1.symm, fun x hx => (hbank ▸ hbehind x hx).le, hgiven⟩
    · refine Working.primaryPass ?_ rfl target.1 (hbank.trans target.2.1.symm)
      obtain ⟨hnodup, hpend⟩ := candidates_pending hl.keys bank _
      exact ⟨hl.keys, hr.repairs, hnodup, hpend, hs.spares, hs.unfailed, fun x hx => (hbank ▸ hbehind x hx).le, hgiven⟩
  | claim w row rest entry source phase front =>
    have hx : a.seq.state = .analysing := ho.analyser (by simp [source])
    obtain ⟨hnodup, hpend⟩ := hr.claiming w source phase
    obtain ⟨hbank, hbanks, hgiven⟩ := hs.analyser w source
    rw [front] at hnodup hpend
    have hw : Working (row :: rest) { w with phase := .primary } a :=
      ⟨hl.keys, hr.repairs, hnodup, hpend, hs.spares, hs.unfailed, hbanks, hgiven⟩
    exact (hw.repairShadow entry).primaryPass (ho.march_none (by simp [hx])) hx hbank
  | refuse w row rest source phase front =>
    have hx : a.seq.state = .analysing := ho.analyser (by simp [source])
    obtain ⟨hnodup, hpend⟩ := hr.claiming w source phase
    obtain ⟨hbank, hbanks, hgiven⟩ := hs.analyser w source
    rw [front] at hnodup hpend
    have hw : Working (row :: rest) { w with phase := .primary } a :=
      ⟨hl.keys, hr.repairs, hnodup, hpend, hs.spares, hs.unfailed, hbanks, hgiven⟩
    exact (treatable_working.unrepairable hw).primaryPass (ho.march_none (by simp [hx])) hx hbank
  | retest q p d source target =>
    rw [ho.analyser_none (by simp [source]), ho.march_none (by simp [source])]
    refine ⟨⟨by simp [FailLog.empty], by simp⟩, ⟨by simp [sparesOf], by simp [sparesOf], by simp, nofun, nofun, by simp⟩⟩
  | shift q p d source target =>
    rw [ho.analyser_none (ne_of_mem_of_not_mem source (by decide)), ho.march_none (ne_of_mem_of_not_mem source (by decide))]
    exact ⟨⟨hr.repairs, by simp⟩, hs.of_idle (ne_of_mem_of_not_mem target (by decide))
      (ne_of_mem_of_not_mem target (by decide)) fun h => absurd h (not_early_of_mem target (by decide))⟩

/-! ### The cap (R78) -/

theorem ChanMove.capOk (h : ChanMove e a b) (ho : a.Orderly) (ha : a.CapOk e.cap e.loading) : b.CapOk e.cap e.loading := by
  cases h with
  | supply | traffic | clock => exact ⟨ha.held, ha.analyser, ha.loading⟩
  | bringUp q d source target =>
    exact ⟨ha.held, ha.analyser, fun hl => ⟨(ha.loading hl).1, by rcases target with h | h | h <;> simp [h]⟩⟩
  | take g q source target => exact ⟨ha.held, ha.analyser, fun hl => ⟨(ha.loading hl).1, by simp [target]⟩⟩
  | leave q d source target =>
    exact ⟨ha.held, nofun, fun hl => ⟨(ha.loading hl).1, ne_of_mem_of_not_mem target (by decide),
      ne_of_mem_of_not_mem target (by decide), ne_of_mem_of_not_mem target (by decide)⟩⟩
  | enqueue bank source =>
    refine ⟨ha.held, nofun, fun hl => ?_⟩
    rcases source with ⟨-, hnot⟩ | ⟨w, hw, -⟩
    · exact absurd hl hnot
    · exact absurd (ho.analyser (by simp [hw])) (ha.loading hl).2.2.2
  | grant m d entered source => exact ⟨ha.held, ha.analyser, fun hl => absurd source (ha.loading hl).2.1⟩
  | sweep m m' l d source => exact ⟨ha.held, ha.analyser, ha.loading⟩
  | analyse q d bank complete source =>
    obtain ⟨-, w, hw, hsame⟩ := beginAnalysis_keeps { a with march := none, seq := q, ds := d } bank complete e.cap
    obtain ⟨hshadow, hroom⟩ :=
      beginAnalysis_shadowEntries { a with march := none, seq := q, ds := d } bank complete e.cap
    refine ⟨by rw [heldEntries_eq, hshadow]; exact ha.held, fun w' hw' => ?_, fun hl => absurd source (ha.loading hl).2.2.1⟩
    obtain rfl := Option.some.inj (hw.symm.trans hw')
    refine ⟨by rw [hsame]; rfl, fun hph => ?_⟩
    rw [heldEntries_eq, hshadow]
    exact hroom w hw hph
  | claim w row rest entry source phase =>
    obtain ⟨hcap, hbelow⟩ := ha.analyser w source
    have hx := ho.analyser (show a.analyser.isSome = true by simp [source])
    obtain ⟨-, w', hw', hsame⟩ := primaryPass_keeps rest { w with phase := .primary } (a.repairShadow w.bank row entry)
    obtain ⟨hshadow, hroom⟩ :=
      primaryPass_shadowEntries rest { w with phase := .primary } (a.repairShadow w.bank row entry)
    have hheld : heldEntries (primaryPass rest { w with phase := .primary } (a.repairShadow w.bank row entry)).remap =
        heldEntries a.remap + 1 := by
      rw [heldEntries_eq, hshadow, repairShadow_remap, shadowEntriesOf_append_shadow, List.length_append]; rfl
    refine ⟨by have := hbelow phase; omega, fun w'' hw'' => ?_, fun hl => absurd hx (ha.loading hl).2.2.2⟩
    obtain rfl := Option.some.inj (hw'.symm.trans hw'')
    refine ⟨by rw [hsame]; exact hcap, fun hph => ?_⟩
    rw [heldEntries_eq, hshadow]
    exact hroom w' hw' hph
  | refuse w row rest source =>
    have hx := ho.analyser (show a.analyser.isSome = true by simp [source])
    obtain ⟨-, w', hw', hsame⟩ := primaryPass_keeps rest { w with phase := .primary } (a.markUnrepairable w.bank row)
    obtain ⟨hshadow, hroom⟩ := primaryPass_shadowEntries rest { w with phase := .primary } (a.markUnrepairable w.bank row)
    refine ⟨by rw [heldEntries_eq, hshadow]; exact ha.held, fun w'' hw'' => ?_, fun hl => absurd hx (ha.loading hl).2.2.2⟩
    obtain rfl := Option.some.inj (hw'.symm.trans hw'')
    refine ⟨by rw [hsame]; exact (ha.analyser w source).1, fun hph => ?_⟩
    rw [heldEntries_eq, hshadow]
    exact hroom w' hw' hph
  | retest q p d source target =>
    refine ⟨Nat.zero_le _, by simp [ho.analyser_none (show a.seq.state ≠ .analysing by simp [source])],
      fun _ => ⟨rfl, by simp [target]⟩⟩
  | shift q p d source target =>
    have hx : a.seq.state ≠ .analysing := ne_of_mem_of_not_mem source (by decide)
    exact ⟨ha.held, by simp [ho.analyser_none hx], fun hl => ⟨(ha.loading hl).1, ne_of_mem_of_not_mem target (by decide),
      ne_of_mem_of_not_mem target (by decide), ne_of_mem_of_not_mem target (by decide)⟩⟩

/-! ### The port (R137, R141, R147) -/

theorem CreditOk.of_closed {x y : SeqState} {p : Port} (h : CreditOk x p) (hx : x ∉ [SeqState.opened, .draining, .closing])
    (hy : y ∉ [SeqState.opened, .draining, .closing]) : CreditOk y p := by
  simp only [List.mem_cons, List.not_mem_nil, or_false, not_or] at hx hy
  exact ⟨fun e => absurd e hy.1, fun e => absurd e hy.2.1, fun _ _ _ => h.closed hx.1 hx.2.1 hx.2.2, h.service⟩

theorem DetectorOk.of_not_opened {strap : BitVec 8} {x y : SeqState} {p : Port} (h : DetectorOk strap x p)
    (hx : x ≠ .opened) : DetectorOk strap y p := fun hd => absurd (h hd).1 hx

theorem SeqState.early.closed {x : SeqState} (h : x.early) : x ∉ [SeqState.opened, .draining, .closing] := by
  rcases h with rfl | rfl | rfl <;> decide

/-- A state of a list without OPEN, DRAINING and CLOSING. -/
theorem SeqState.closed_of_mem {x : SeqState} {l : List SeqState} (h : x ∈ l)
    (hl : (l.all fun y => !([SeqState.opened, .draining, .closing].contains y)) = true) :
    x ∉ [SeqState.opened, .draining, .closing] := by
  have := List.all_eq_true.mp hl x h
  simpa using this

theorem ChanMove.creditOk (h : ChanMove e a b) (ho : a.Orderly) (ha : CreditOk a.seq.state a.port) :
    CreditOk b.seq.state b.port := by
  cases h with
  | supply | clock | sweep => exact ha
  | traffic p d credit => exact credit ha
  | bringUp q d source target => exact ha.of_closed source.closed target.closed
  | take g q source target => exact ha.of_closed (by simp [source]) (by simp [target])
  | leave q d source target =>
    exact ha.of_closed (SeqState.closed_of_mem source (by decide)) (SeqState.closed_of_mem target (by decide))
  | enqueue bank source =>
    rcases source with ⟨hx, -⟩ | ⟨w, hw, -⟩
    · exact ha.of_closed (by simp [hx]) (by simp)
    · exact ha.of_closed (by simp [ho.analyser (by simp [hw])]) (by simp)
  | grant m d entered source => exact ha.of_closed (by simp [source]) (by simp)
  | analyse q d bank complete source sweep target =>
    rw [(beginAnalysis_keeps ..).1.frame]
    exact ha.of_closed (by simp [source]) (by simp [target.1])
  | claim => rw [(primaryPass_keeps ..).1.frame]; exact ha
  | refuse => rw [(primaryPass_keeps ..).1.frame]; exact ha
  | retest q p d source target wait queue service detector empty =>
    exact ⟨by simp [target], by simp [target], fun _ _ _ => queue, fun h => absurd empty (ha.service (service ▸ h))⟩
  | shift q p d source target ident wait credit => exact credit ha

theorem ChanMove.detectorOk (h : ChanMove e a b) (ho : a.Orderly) (ha : DetectorOk e.strap a.seq.state a.port) :
    DetectorOk e.strap b.seq.state b.port := by
  cases h with
  | supply | clock | sweep => exact ha
  | traffic p d credit detector => exact detector ha
  | bringUp q d source => exact ha.of_not_opened fun h => source.closed (by simp [h])
  | take g q source => exact ha.of_not_opened (by simp [source])
  | leave q d source => exact ha.of_not_opened (ne_of_mem_of_not_mem source (by decide))
  | enqueue bank source =>
    rcases source with ⟨hx, -⟩ | ⟨w, hw, -⟩
    · exact ha.of_not_opened (by simp [hx])
    · exact ha.of_not_opened (by simp [ho.analyser (by simp [hw])])
  | grant m d entered source => exact ha.of_not_opened (by simp [source])
  | analyse q d bank complete source =>
    rw [(beginAnalysis_keeps ..).1.frame]
    exact ha.of_not_opened (by simp [source])
  | claim => rw [(primaryPass_keeps ..).1.frame]; exact ha
  | refuse => rw [(primaryPass_keeps ..).1.frame]; exact ha
  | retest q p d source target wait queue service detector =>
    exact fun h => absurd ((ha (detector ▸ h)).1.symm.trans source) (by decide)
  | shift q p d source target ident wait credit detector => exact detector ha

/-! ### Refresh (R26) -/

/-- Without a sweep there is no pause, so refresh is not withheld. -/
theorem refreshOk_of_no_march {ch : Channel} (hm : ch.march = none) (hd : ch.ds.refreshWithheld = false) : ch.RefreshOk := by
  have : ch.pausing = false := by simp [Channel.pausing, hm]
  exact ⟨by rw [hd, this], by simp [this]⟩

theorem Channel.RefreshOk.not_withheld (h : a.RefreshOk) (hm : a.march = none) : a.ds.refreshWithheld = false := by
  rw [h.withheld]; simp [Channel.pausing, hm]

theorem StreamKept.refreshOk {d : Downstream} (h : StreamKept a.ds d) (ha : a.RefreshOk) {q : Sequencer} {p : Port} :
    ({ a with seq := q, port := p, ds := d } : Channel).RefreshOk := by
  refine ⟨h.1.trans ha.withheld, fun hp => ?_⟩
  by_contra hany
  have := h.2 (by simpa using hany)
  simp [ha.quiet hp] at this

theorem ChanMove.refreshOk (h : ChanMove e a b) (ho : a.Orderly) (steady : e.steady) (ha : a.RefreshOk) : b.RefreshOk := by
  cases h with
  | supply | clock | take | enqueue => exact ⟨ha.withheld, ha.quiet⟩
  | traffic p d credit detector stream => exact stream.refreshOk ha
  | bringUp q d source target ident wait stream => exact stream.refreshOk ha
  | leave q d source target ident wait refresh =>
    refine refreshOk_of_no_march rfl ?_
    rcases refresh with h | ⟨hx, h⟩
    · exact h
    · exact h.trans (ha.not_withheld (ho.march_none hx))
  | grant m d entered source fresh refresh =>
    have hp : ({ a with seq := { a.seq with state := .testing, entered := entered }, march := m, ds := d } : Channel).pausing
        = false := by
      cases hm : m with
      | none => rfl
      | some x => simp [Channel.pausing, (fresh x hm).2]
    exact ⟨by rw [hp, refresh, ha.not_withheld (ho.march_none (by simp [source]))], by simp [hp]⟩
  | sweep m m' l d source bank log refresh => exact refresh steady ha
  | analyse q d bank complete source sweep target refresh =>
    rw [(beginAnalysis_keeps ..).1.frame]
    exact refreshOk_of_no_march rfl (refresh steady ha)
  | claim => rw [(primaryPass_keeps ..).1.frame]; exact ⟨ha.withheld, ha.quiet⟩
  | refuse => rw [(primaryPass_keeps ..).1.frame]; exact ⟨ha.withheld, ha.quiet⟩
  | retest q p d source target wait queue service detector empty stream =>
    have hm := ho.march_none (show a.seq.state ≠ .testing by simp [source])
    exact refreshOk_of_no_march hm (stream.1.trans (ha.not_withheld hm))
  | shift q p d source target ident wait credit detector stream => exact stream.refreshOk ha

/-! ### FAILED and ABSENT (R91, R103, R106) -/

/-- What a lost channel keeps. -/
structure LostKept (a b : Channel) : Prop where
  state : b.seq.state = a.seq.state
  result : b.seq.result = a.seq.result
  reason : b.seq.reason = a.seq.reason
  repairs : KeepsRepairs a b

theorem ChanMove.lostKept (h : ChanMove e a b) (ho : a.Orderly) (ha : a.seq.state = .failed ∨ a.seq.state = .absent) :
    LostKept a b := by
  have other {x : SeqState} (hx : a.seq.state = x) (h1 : x ≠ .failed) (h2 : x ≠ .absent) : False :=
    ha.elim (fun h => h1 (hx.symm.trans h)) (fun h => h2 (hx.symm.trans h))
  cases h with
  | supply | traffic | clock => exact ⟨rfl, rfl, rfl, rfl, rfl, rfl⟩
  | bringUp q d source => rcases source with h | h | h <;> exact (other h (by decide) (by decide)).elim
  | take g q source => exact (other source (by decide) (by decide)).elim
  | leave q d source => rcases ha with h | h <;> simp [h] at source
  | enqueue bank source =>
    rcases source with ⟨hx, -⟩ | ⟨w, hw, -⟩
    · exact (other hx (by decide) (by decide)).elim
    · exact (other (ho.analyser (by simp [hw])) (by decide) (by decide)).elim
  | grant m d entered source => exact (other source (by decide) (by decide)).elim
  | sweep m m' l d source => exact (other (ho.march (by simp [source])) (by decide) (by decide)).elim
  | analyse q d bank complete source => exact (other source (by decide) (by decide)).elim
  | claim w row rest entry source => exact (other (ho.analyser (by simp [source])) (by decide) (by decide)).elim
  | refuse w row rest source => exact (other (ho.analyser (by simp [source])) (by decide) (by decide)).elim
  | retest q p d source => exact (other source (by decide) (by decide)).elim
  | shift q p d source => rcases ha with h | h <;> simp [h] at source

end

end Sys2Proof.Machine
end

section
/-! What every command keeps of the whole part: `Keeps s t` says that `t` comes of `s` by moves of its channels, with the
arbiter, the shadow pool and the frame in step. It composes, so a command's meaning keeps it when its operations do. -/

namespace Sys2Proof.Machine

/-! ### The relation -/

/-- R110's part of `SequencerLaw`: the wait queue holds the QUEUED channels, and the slots the TESTING ones. -/
structure QueueLaw (s : State) : Prop where
  waiting : ∀ c, c ∈ s.arbiter.waitQueue ↔ s.seqState c = .queued
  holding : ∀ c, c ∈ s.arbiter.holders ↔ s.seqState c = .testing
  wait_nodup : s.arbiter.waitQueue.Nodup
  hold_nodup : s.arbiter.holders.Nodup

/-- `SequencerLaw` but for the state held in reset. -/
structure Ordered (s : State) : Prop where
  chans : ∀ c, (s.chan c).Orderly
  queue : QueueLaw s

theorem sequencerLaw_iff (s : State) : SequencerLaw s ↔ HeldLaw s ∧ Ordered s := by
  constructor
  · rintro ⟨h, h1, h2, h3, h4, h5, h6, h7, h8⟩
    exact ⟨h, fun c => ⟨h1 c, h2 c, h3 c, h4 c⟩, h5, h6, h7, h8⟩
  · rintro ⟨h, hc, hq⟩
    exact ⟨h, fun c => (hc c).march, fun c => (hc c).analyser, fun c => (hc c).ident, fun c => (hc c).supplyWait,
      hq.waiting, hq.holding, hq.wait_nodup, hq.hold_nodup⟩

/-- What the moves of the channels of `s` lean on. -/
def State.setting (s : State) (steady : Prop) : Setting :=
  { strap := s.strap, cap := s.shadow.cap, loading := s.loader.state = .loading, steady := steady }

/-- A channel comes of another by moves. -/
abbrev ChanMoves (e : Setting) : Channel → Channel → Prop := Relation.ReflTransGen (ChanMove e)

/-- The laws of the shadow pool (R77). -/
def PoolLaw (s : State) : Prop := ShadowLaw s ∧ Memory.wf s.shadow.store

/-- FAILED or ABSENT. -/
def SeqState.lost (x : SeqState) : Prop := x = .failed ∨ x = .absent

structure Keeps (steady : Prop) (s t : State) : Prop where
  inReset : t.inReset = s.inReset
  setting : t.setting steady = s.setting steady
  pending : t.pending = s.pending
  pool : PoolLaw s → PoolLaw t
  ordered : Ordered s → Ordered t
  arbiter : Ordered s → ArbiterLaw s → ArbiterLaw t
  moves : Ordered s → ∀ c, ChanMoves (s.setting steady) (s.chan c) (t.chan c)
  holders : Ordered s → ∀ c, (s.seqState c).lost → ∀ i : Fin 32, s.shadow.holders[i] = some c → t.shadow.holders[i] = some c

/-- An invariant of a channel that every move keeps is kept by moves. -/
theorem ChanMoves.keep {e : Setting} {P : Channel → Prop} (hP : ∀ a b, ChanMove e a b → a.Orderly → P a → P b)
    {a b : Channel} (h : ChanMoves e a b) (ho : a.Orderly) (ha : P a) : b.Orderly ∧ P b := by
  induction h with
  | refl => exact ⟨ho, ha⟩
  | tail _ hmove ih => exact ⟨hmove.orderly ih.1, hP _ _ hmove ih.1 ih.2⟩

theorem ChanMoves.lostKept {e : Setting} {a b : Channel} (h : ChanMoves e a b) (ho : a.Orderly) (ha : a.seq.state.lost) :
    LostKept a b := by
  refine (h.keep (P := LostKept a) (fun x y hxy hx hax => ?_) ho ⟨rfl, rfl, rfl, rfl, rfl, rfl⟩).2
  have hxlost : x.seq.state.lost := by rw [hax.state]; exact ha
  have := hxy.lostKept hx hxlost
  exact ⟨this.state.trans hax.state, this.result.trans hax.result, this.reason.trans hax.reason,
    this.repairs.1.trans hax.repairs.1, this.repairs.2.1.trans hax.repairs.2.1, this.repairs.2.2.trans hax.repairs.2.2⟩

section
variable {steady : Prop} {s t u : State}

theorem Keeps.refl (s : State) : Keeps steady s s :=
  ⟨rfl, rfl, rfl, id, id, fun _ => id, fun _ _ => .refl, fun _ _ _ _ => id⟩

theorem Keeps.trans (h : Keeps steady s t) (h' : Keeps steady t u) : Keeps steady s u where
  inReset := h'.inReset.trans h.inReset
  setting := h'.setting.trans h.setting
  pending := h'.pending.trans h.pending
  pool := h'.pool ∘ h.pool
  ordered := h'.ordered ∘ h.ordered
  arbiter ho := h'.arbiter (h.ordered ho) ∘ h.arbiter ho
  moves ho c := (h.moves ho c).trans (h.setting ▸ h'.moves (h.ordered ho) c)
  holders ho c hc i hi := by
    refine h'.holders (h.ordered ho) c ?_ i (h.holders ho c hc i hi)
    have := ((h.moves ho c).lostKept (ho.chans c) hc).state
    unfold State.seqState at hc ⊢
    rwa [this]

theorem Keeps.foldl {α : Type} {f : State → α → State} (hf : ∀ s x, Keeps steady s (f s x)) (l : List α) (s : State) :
    Keeps steady s (l.foldl f s) := by
  induction l generalizing s with
  | nil => exact .refl s
  | cons x l ih => exact (hf s x).trans (ih _)

/-! ### Moves of channels that ask nothing of the arbiter -/

/-- The channel is QUEUED or TESTING after exactly when it was before. -/
def SameSlot (x y : SeqState) : Prop := (y = .queued ↔ x = .queued) ∧ (y = .testing ↔ x = .testing)

theorem SameSlot.rfl' (x : SeqState) : SameSlot x x := ⟨.rfl, .rfl⟩

/-- States that neither wait for a slot nor hold one. -/
theorem sameSlot_of_idle {x y : SeqState} (hx : x ∉ [SeqState.queued, .testing]) (hy : y ∉ [SeqState.queued, .testing]) :
    SameSlot x y := by
  simp only [List.mem_cons, List.not_mem_nil, or_false, not_or] at hx hy
  exact ⟨iff_of_false hy.1 hx.1, iff_of_false hy.2 hx.2⟩

theorem QueueLaw.of_sameSlot (h : QueueLaw s) (ha : t.arbiter = s.arbiter)
    (hc : ∀ c, SameSlot (s.seqState c) (t.seqState c)) : QueueLaw t where
  waiting c := by rw [ha, h.waiting, (hc c).1]
  holding c := by rw [ha, h.holding, (hc c).2]
  wait_nodup := ha ▸ h.wait_nodup
  hold_nodup := ha ▸ h.hold_nodup

theorem shadowLaw_of_entries (hs : t.shadow.holders = s.shadow.holders)
    (hc : ∀ c, shadowEntriesOf (t.chan c).remap = shadowEntriesOf (s.chan c).remap) (h : ShadowLaw s) : ShadowLaw t := by
  intro c e
  rw [namesOf_eq, hc, ← namesOf_eq, hs]
  exact h c e

theorem Ordered.of_moves {e : Setting} (h : Ordered s) (hm : ∀ c, ChanMoves e (s.chan c) (t.chan c)) (hq : QueueLaw t) :
    Ordered t :=
  ⟨fun c => ((hm c).keep (P := fun _ => True) (fun _ _ _ _ => id) (h.chans c) trivial).1, hq⟩

/-- A change of the channels alone, none of which enters or leaves the arbiter's lists. -/
theorem Keeps.of_moves (inReset : t.inReset = s.inReset) (setting : t.setting steady = s.setting steady)
    (pending : t.pending = s.pending) (arbiter : t.arbiter = s.arbiter) (shadow : t.shadow.holders = s.shadow.holders)
    (store : Memory.wf s.shadow.store → Memory.wf t.shadow.store)
    (entries : ∀ c, shadowEntriesOf (t.chan c).remap = shadowEntriesOf (s.chan c).remap)
    (slots : Ordered s → ∀ c, SameSlot (s.seqState c) (t.seqState c))
    (moves : Ordered s → ∀ c, ChanMoves (s.setting steady) (s.chan c) (t.chan c)) : Keeps steady s t where
  inReset := inReset
  setting := setting
  pending := pending
  pool h := ⟨shadowLaw_of_entries shadow entries h.1, store h.2⟩
  ordered h := h.of_moves (moves h) (h.queue.of_sameSlot arbiter (slots h))
  arbiter _ h := by unfold ArbiterLaw; rw [arbiter]; exact h
  moves := moves
  holders _ _ _ _ hi := by rw [shadow]; exact hi

/-- The shared blocks but the arbiter and the shadow pool may change at will. -/
theorem Keeps.of_chans_eq (inReset : t.inReset = s.inReset) (setting : t.setting steady = s.setting steady)
    (pending : t.pending = s.pending) (arbiter : t.arbiter = s.arbiter) (shadow : t.shadow = s.shadow)
    (chans : ∀ c, t.chan c = s.chan c) : Keeps steady s t :=
  .of_moves inReset setting pending arbiter (by rw [shadow]) (by rw [shadow]; exact id) (fun c => by rw [chans])
    (fun _ c => by unfold State.seqState; rw [chans]; exact .rfl' _) (fun _ c => by rw [chans])

theorem keeps_board (s : State) (b : Board) : Keeps steady s { s with board := b } :=
  .of_chans_eq rfl rfl rfl rfl rfl fun _ => rfl

theorem keeps_updWriter (s : State) (f : Writer → Writer) : Keeps steady s (s.updWriter f) :=
  .of_chans_eq rfl rfl rfl rfl rfl fun _ => rfl

theorem seqState_updChan (s : State) (c d : Chan) (f : Channel → Channel) :
    (s.updChan c f).seqState d = if d = c then (f (s.chan c)).seq.state else s.seqState d := by
  unfold State.seqState; rw [chan_updChan]; split <;> rfl

/-- Moves of one channel that ask nothing of the arbiter. -/
theorem keeps_updChan (s : State) (c : Chan) (f : Channel → Channel)
    (entries : shadowEntriesOf (f (s.chan c)).remap = shadowEntriesOf (s.chan c).remap)
    (slots : Ordered s → SameSlot (s.seqState c) (f (s.chan c)).seq.state)
    (moves : Ordered s → ChanMoves (s.setting steady) (s.chan c) (f (s.chan c))) : Keeps steady s (s.updChan c f) := by
  refine .of_moves rfl rfl rfl rfl rfl id (fun d => ?_) (fun h d => ?_) (fun h d => ?_)
  · rw [chan_updChan]; split
    · subst_vars; exact entries
    · rfl
  · rw [seqState_updChan]; split
    · subst_vars; exact slots h
    · exact .rfl' _
  · rw [chan_updChan]; split
    · subst_vars; exact moves h
    · exact .refl

/-- One move of one channel, in one state. -/
theorem keeps_updChan_same (s : State) (c : Chan) (f : Channel → Channel) (entries : (f (s.chan c)).remap = (s.chan c).remap)
    (state : (f (s.chan c)).seq.state = s.seqState c)
    (move : Ordered s → ChanMove (s.setting steady) (s.chan c) (f (s.chan c))) : Keeps steady s (s.updChan c f) :=
  keeps_updChan s c f (by rw [entries]) (fun _ => by rw [state]; exact .rfl' _) fun h => .single (move h)

/-! ### Streams, ports and timers -/

theorem StreamKept.refl (d : Downstream) : StreamKept d d := ⟨rfl, id⟩

theorem keeps_updDs (s : State) (c : Chan) (f : Downstream → Downstream) (h : StreamKept (s.chan c).ds (f (s.chan c).ds)) :
    Keeps steady s (s.updDs c f) :=
  keeps_updChan_same s c _ rfl rfl fun _ => .traffic _ _ id id h

theorem keeps_updPort (s : State) (c : Chan) (f : Port → Port)
    (credit : CreditOk (s.seqState c) (s.chan c).port → CreditOk (s.seqState c) (f (s.chan c).port))
    (detector : DetectorOk s.strap (s.seqState c) (s.chan c).port →
      DetectorOk s.strap (s.seqState c) (f (s.chan c).port)) : Keeps steady s (s.updPort c f) :=
  keeps_updChan_same s c _ rfl rfl fun _ => .traffic _ _ credit detector (.refl _)

/-- A change of the port that leaves credits, queue, service and detector. -/
theorem keeps_updPort_frame (s : State) (c : Chan) (f : Port → Port) (credit : (f (s.chan c).port).credit = (s.chan c).port.credit)
    (queue : (f (s.chan c).port).queue = (s.chan c).port.queue)
    (service : (f (s.chan c).port).service.isSome = true → (s.chan c).port.service.isSome = true)
    (detector : (f (s.chan c).port).detector = (s.chan c).port.detector) : Keeps steady s (s.updPort c f) :=
  keeps_updPort s c f
    (fun h => ⟨by rw [credit, queue]; exact h.1, by rw [credit, queue]; exact h.2, by rw [queue]; exact h.3,
      fun hs => by rw [queue]; exact h.4 (service hs)⟩)
    (fun h => by unfold DetectorOk; rw [detector]; exact h)

theorem streamKept_append (d : Downstream) {op : DsOp} (h : op.isLiveSweep = false) :
    StreamKept d { d with ops := d.ops ++ [op] } := ⟨rfl, by simp [h]⟩

theorem keeps_handOver (s : State) (c : Chan) {op : DsOp} (h : op.isLiveSweep = false) : Keeps steady s (s.handOver c op) :=
  keeps_updDs s c _ (streamKept_append _ h)

theorem keeps_completeHead (s : State) (c : Chan) : Keeps steady s (s.completeHead c) := by
  refine keeps_updDs s c _ ?_
  split
  next => exact .refl _
  next op rest hops => exact ⟨rfl, fun h => by simp [hops, show rest.any DsOp.isLiveSweep = true from h]⟩

theorem keeps_dropOps (s : State) (c : Chan) (p : DsOp → Bool) : Keeps steady s (s.dropOps c p) := by
  refine keeps_updDs s c _ ⟨rfl, fun h => ?_⟩
  obtain ⟨op, hop, hlive⟩ := List.any_eq_true.mp h
  exact List.any_eq_true.mpr ⟨op, List.mem_of_mem_filter hop, hlive⟩

theorem keeps_mapOps (s : State) (c : Chan) (f : DsOp → DsOp) (hf : ∀ op, (f op).isLiveSweep = true → op.isLiveSweep = true) :
    Keeps steady s (s.mapOps c f) := by
  refine keeps_updDs s c _ ⟨rfl, fun h => ?_⟩
  obtain ⟨op', hop', hlive⟩ := List.any_eq_true.mp h
  obtain ⟨op, hop, rfl⟩ := List.mem_map.mp hop'
  exact List.any_eq_true.mpr ⟨op, hop, hf op hlive⟩

theorem isLiveSweep_discardWidth (op : DsOp) : op.discardWidth.isLiveSweep = op.isLiveSweep := by
  obtain ⟨owner, _⟩ := op
  cases owner <;> rfl

theorem isLiveSweep_discardReport (op : DsOp) : op.discardReport.isLiveSweep = op.isLiveSweep := by
  obtain ⟨owner, _⟩ := op
  cases owner <;> rfl

theorem isLiveSweep_discardSweep (op : DsOp) : op.discardSweep.isLiveSweep = false := by
  obtain ⟨owner, _⟩ := op
  cases owner <;> rfl

theorem isLiveSweep_of_isReport {op : DsOp} (h : op.isReport = true) : op.isLiveSweep = false := by
  obtain ⟨owner, _⟩ := op
  cases owner with
  | report => rfl
  | widthCheck | sweep | port => exact nomatch h

end

end Sys2Proof.Machine
end

section
/-! The shared operations of bring-up, testing and the report keep what `Keeps` says. -/

namespace Sys2Proof.Machine

/-! ### Updates of one channel compose -/

theorem updChan_updChan (s : State) (c : Chan) (f g : Channel → Channel) :
    (s.updChan c f).updChan c g = s.updChan c fun ch => g (f ch) := by
  refine state_ext rfl rfl (fun d => ?_) rfl rfl rfl rfl rfl rfl
  simp only [chan_updChan]
  split <;> simp_all

theorem updChan_congr (s : State) (c : Chan) {f g : Channel → Channel} (h : f (s.chan c) = g (s.chan c)) :
    s.updChan c f = s.updChan c g := by
  unfold State.updChan; rw [h]

theorem updSeq_updSeq (s : State) (c : Chan) (f g : Sequencer → Sequencer) :
    (s.updSeq c f).updSeq c g = s.updSeq c fun q => g (f q) := updChan_updChan s c _ _

theorem updPort_updPort (s : State) (c : Chan) (f g : Port → Port) :
    (s.updPort c f).updPort c g = s.updPort c fun p => g (f p) := updChan_updChan s c _ _

theorem updDs_updDs (s : State) (c : Chan) (f g : Downstream → Downstream) :
    (s.updDs c f).updDs c g = s.updDs c fun d => g (f d) := updChan_updChan s c _ _

/-- The Board Line Unit's updater. -/
def State.updBoard (s : State) (f : Board → Board) : State := { s with board := f s.board }

@[simp] theorem chan_updBoard (s : State) (d : Chan) (f : Board → Board) : (s.updBoard f).chan d = s.chan d := rfl
@[simp] theorem board_updBoard (s : State) (f : Board → Board) : (s.updBoard f).board = f s.board := rfl
@[simp] theorem inReset_updBoard (s : State) (f : Board → Board) : (s.updBoard f).inReset = s.inReset := rfl
@[simp] theorem strap_updBoard (s : State) (f : Board → Board) : (s.updBoard f).strap = s.strap := rfl
@[simp] theorem arbiter_updBoard (s : State) (f : Board → Board) : (s.updBoard f).arbiter = s.arbiter := rfl
@[simp] theorem shadow_updBoard (s : State) (f : Board → Board) : (s.updBoard f).shadow = s.shadow := rfl
@[simp] theorem loader_updBoard (s : State) (f : Board → Board) : (s.updBoard f).loader = s.loader := rfl
@[simp] theorem writer_updBoard (s : State) (f : Board → Board) : (s.updBoard f).writer = s.writer := rfl
@[simp] theorem pending_updBoard (s : State) (f : Board → Board) : (s.updBoard f).pending = s.pending := rfl

/-- FAULT after a channel has taken a result (R158). -/
def Board.took (b : Board) (r : EndResult) : Board := { b with fault := b.fault || r.isFault }

theorem takeResult_eq (s : State) (c : Chan) (r : EndResult) (why : Reason) :
    s.takeResult c r why =
      (s.updChan c fun ch => { ch with seq := { ch.seq with result := r, reason := why } }).updBoard (·.took r) := rfl

theorem updChan_updBoard (s : State) (c : Chan) (f : Channel → Channel) (g : Board → Board) :
    (s.updBoard g).updChan c f = (s.updChan c f).updBoard g := rfl

/-- The identity read begins at select value 0 (R90). -/
def Channel.identifies (ch : Channel) : Channel :=
  { ch with seq := { ch.seq with state := .identifying, supplyWait := false, ident := .reading 0 1 none [] },
            ds := { ch.ds with select := 0 } }

theorem enterIdentifying_eq (s : State) (c : Chan) : s.enterIdentifying c = s.updChan c Channel.identifies := by
  unfold State.enterIdentifying State.updDs State.updSeq
  rw [updChan_updChan]; rfl

/-- The identity read or the width check has stopped (R90, R92). -/
def Channel.unidentified (ch : Channel) : Channel :=
  { ch with seq := { ch.seq with ident := .idle }, ds := { ch.ds with ops := ch.ds.ops.map DsOp.discardWidth } }

theorem stopIdentify_eq (s : State) (c : Chan) : s.stopIdentify c = s.updChan c Channel.unidentified := by
  unfold State.stopIdentify State.mapOps State.updDs State.updSeq
  rw [updChan_updChan]; rfl

/-- The channel takes FAILED with a reason (R106). -/
def Channel.failed (why : Reason) (ch : Channel) : Channel :=
  { ch with seq := { ch.seq with state := .failed, result := .failed, reason := why } }

theorem failChannel_eq (s : State) (c : Chan) (why : Reason) :
    s.failChannel c why = (s.updChan c (Channel.failed why)).updBoard (·.took .failed) := by
  rw [State.failChannel, takeResult_eq, State.setSeqState, State.updSeq, updChan_updBoard, updChan_updChan]
  rfl

/-- A channel in DONE: with strap bit 5 at 0 it opens at that moment (R99). -/
def Channel.whenDone (strap : BitVec 8) (ch : Channel) : Channel :=
  { ch with seq := { ch.seq with state := if strapPublish strap then .done else .opened },
            port := portWhenDone strap ch.port }

theorem enterDone_eq (s : State) (c : Chan) : s.enterDone c = s.updChan c (Channel.whenDone s.strap) := by
  unfold State.enterDone State.openChannel State.setSeqState Channel.whenDone portWhenDone portOpened
  cases h : strapPublish s.strap
  · simp only [State.updPort, State.updSeq, updChan_updChan, strap_updChan, h, Config.creditMax]; rfl
  · simp [h, State.updSeq]

/-- The channel takes UNTESTED and enters DONE (R69, R96, R118). -/
def Channel.untested (strap : BitVec 8) (ch : Channel) : Channel :=
  ({ ch with seq := { ch.seq with result := .untested, reason := .unset } } : Channel).whenDone strap

theorem finishUntested_eq (s : State) (c : Chan) :
    s.finishUntested c = (s.updChan c (Channel.untested s.strap)).updBoard (·.took .untested) := by
  rw [State.finishUntested, enterDone_eq, takeResult_eq, updChan_updBoard, updChan_updChan]
  rfl

/-- The channel takes a result other than FAILED REPAIR at the end of its testing (R98). -/
def Channel.tested (strap : BitVec 8) (openFailed : Bool) (ch : Channel) : Channel :=
  ({ ch with seq := { ch.seq with result := ch.endResult openFailed, reason := ch.endReason } } : Channel).whenDone strap

/-- The channel at the end of its testing (R68, R98). -/
def Channel.ended (strap : BitVec 8) (openFailed : Bool) (ch : Channel) : Channel :=
  if ch.endResult openFailed = .failed then ch.failed .repair else ch.tested strap openFailed

theorem endReason_of_failed {ch : Channel} {openFailed : Bool} (h : ch.endResult openFailed = .failed) :
    ch.endReason = .repair := by
  unfold Channel.endResult at h
  unfold Channel.endReason
  split at h
  · rw [if_pos ‹_›]
  · split at h
    · cases h
    · split at h
      · cases h
      · split at h <;> cases h

theorem endTesting_eq (s : State) (c : Chan) :
    s.endTesting c =
      (s.updChan c (Channel.ended s.strap s.loader.kept.openFailed)).updBoard
        (·.took ((s.chan c).endResult s.loader.kept.openFailed)) := by
  unfold State.endTesting
  dsimp only
  split
  next h =>
    rw [failChannel_eq, h]
    exact congrArg (State.updBoard · _) (updChan_congr s c (if_pos h).symm)
  next h =>
    rw [enterDone_eq, takeResult_eq, updChan_updBoard, updChan_updChan]
    exact congrArg (State.updBoard · _) (updChan_congr s c (if_neg h).symm)

/-! ### The report and the board lines -/

section
variable {steady : Prop}

theorem opens_portOk {strap : BitVec 8} {p : Port} :
    (CreditOk .done p → CreditOk .opened { p with credit := 16, outbound := p.outbound ++ [.restore 16] }) ∧
    (DetectorOk strap .done p →
      DetectorOk strap .opened { p with credit := 16, outbound := p.outbound ++ [.restore 16] }) := by
  refine ⟨fun h => ?_, fun h hd => absurd (h hd).1 (by decide)⟩
  have hq : p.queue = [] := h.closed (by decide) (by decide) (by decide)
  exact ⟨fun _ => by simp [hq], nofun, fun hn => absurd rfl hn, h.service⟩

theorem streamKept_of_own {a b : Downstream} (h : b = { a with ops := b.ops })
    (hown : b.ops.filter (fun op => !op.isReport) = a.ops.filter fun op => !op.isReport) : StreamKept a b := by
  refine ⟨by rw [h], fun hlive => ?_⟩
  obtain ⟨op, hop, hlive⟩ := List.any_eq_true.mp hlive
  have hreport : op.isReport = false := by
    by_contra hr
    rw [isLiveSweep_of_isReport (by simpa using hr)] at hlive
    exact absurd hlive (by decide)
  have hmem : op ∈ a.ops.filter fun op => !op.isReport := hown ▸ List.mem_filter.mpr ⟨hop, by simp [hreport]⟩
  exact List.any_eq_true.mpr ⟨op, List.mem_of_mem_filter hmem, hlive⟩

/-- What the Report Writer does to a channel is one move of it. -/
theorem KeepsRecord.move {e : Setting} {a b : Channel} (h : KeepsRecord a b) : ChanMove e a b := by
  obtain ⟨hsupply, hgeo, hremap, hlog, hmarch, hanalyser, hseq, hopens, hds, hown⟩ := h
  have hb : b = { a with seq := b.seq, port := b.port, ds := b.ds } := by
    obtain ⟨_, _, _, _, _, _, _, _, _⟩ := b
    dsimp only at hsupply hgeo hremap hlog hmarch hanalyser
    subst hsupply hgeo hremap hlog hmarch hanalyser
    rfl
  rcases hopens with ⟨hx, hp⟩ | ⟨hx, hy, hp⟩
  · have hseq' : b.seq = a.seq := by rw [hseq, hx]
    rw [hb, hseq', hp]
    exact .traffic _ _ id id (streamKept_of_own hds hown)
  · rw [hb]
    refine .shift _ _ _ (by simp [hx]) (by simp [hy]) (by rw [hseq]) (by rw [hseq]) (fun hc => ?_) (fun hd => ?_)
      (streamKept_of_own hds hown)
    · rw [hy, hp]; exact (opens_portOk (strap := e.strap)).1 (hx ▸ hc)
    · rw [hy, hp]; exact opens_portOk.2 (hx ▸ hd)

theorem Bystander.keeps {s t : State} (h : Bystander s t) : Keeps steady s t := by
  obtain ⟨⟨hreset, hstrap, hshadow, hloader, hpending, -⟩, harb, -, hchan⟩ := h
  refine .of_moves hreset (by simp only [State.setting, hstrap, hshadow, hloader]) hpending harb (by rw [hshadow])
    (by rw [hshadow]; exact id) (fun c => by rw [(hchan c).2.2.1]) (fun _ c => ?_) (fun _ c => .single (hchan c).move)
  obtain ⟨-, -, -, -, -, -, -, hopens, -, -⟩ := hchan c
  rcases hopens with ⟨hx, -⟩ | ⟨hx, hy, -⟩
  · exact ⟨by unfold State.seqState; rw [hx], by unfold State.seqState; rw [hx]⟩
  · exact sameSlot_of_idle (by unfold State.seqState; simp [hx]) (by unfold State.seqState; simp [hy])

theorem keeps_settle (s : State) : Keeps steady s s.settle := (bystander_settle s).keeps

theorem keeps_storeReport (s : State) (c : Chan) : Keeps steady s (s.storeReport c) := by
  refine .of_moves ?_ ?_ ?_ ?_ ?_ ?_ (fun d => by rw [storeReport_chan]) (fun _ d => ?_) (fun _ d => by rw [storeReport_chan])
  case refine_6 =>
    intro h
    unfold State.storeReport State.storeWrite
    split
    · split
      · split
        · exact shadowWriteBlock_wf _ _ _ h
        all_goals exact h
      · exact h
    · exact h
  case refine_7 => unfold State.seqState; rw [storeReport_chan]; exact .rfl' _
  case refine_2 => rw [storeReport_eq]; rfl
  all_goals rw [storeReport_eq]

/-! ### Bring-up -/

theorem keeps_setSupply (s : State) (c : Chan) (good : Bool) : Keeps steady s (s.setSupply c good) :=
  keeps_updChan_same s c _ rfl rfl fun _ => .supply good

theorem SeqState.early.notMem {x : SeqState} (h : x.early) : x ∉ [SeqState.queued, .testing] := by
  rcases h with rfl | rfl | rfl <;> decide

/-- Supply wait, identity read and width check. -/
theorem keeps_bringUp (s : State) (c : Chan) (f : Channel → Channel) (q : Sequencer) (d : Downstream)
    (hf : f (s.chan c) = { s.chan c with seq := q, ds := d }) (source : Ordered s → (s.seqState c).early)
    (target : q.state.early)
    (ident : q.ident ≠ .idle → q.state = .identifying)
    (wait : Ordered s → q.supplyWait = true → q.state = .powering) (stream : StreamKept (s.chan c).ds d) :
    Keeps steady s (s.updChan c f) := by
  refine keeps_updChan s c f (by rw [hf]) (fun ho => ?_) fun ho => .single ?_
  · rw [hf]; exact sameSlot_of_idle (source ho).notMem target.notMem
  · rw [hf]; exact .bringUp q d (source ho) target ident (wait ho) stream

theorem Ordered.waits_powering {s : State} (h : Ordered s) (c : Chan) {x : SeqState} (hx : s.seqState c = x) :
    (s.chan c).seq.supplyWait = true → x = .powering := fun hw => hx ▸ (h.chans c).supplyWait hw

theorem keeps_enterIdentifying (s : State) (c : Chan) (h : (s.seqState c).early) : Keeps steady s (s.enterIdentifying c) := by
  rw [enterIdentifying_eq]
  exact keeps_bringUp s c _ _ _ rfl (fun _ => h) (.inr (.inl rfl)) (fun _ => rfl) (fun _ => nofun) (.refl _)

theorem keeps_stopIdentify (s : State) (c : Chan) (h : (s.seqState c).early) : Keeps steady s (s.stopIdentify c) := by
  refine Keeps.trans ?_ (keeps_mapOps _ c _ fun op h => by rwa [isLiveSweep_discardWidth] at h)
  exact keeps_bringUp s c _ _ _ rfl (fun _ => h) h nofun (fun ho => ho.waits_powering c rfl) (.refl _)

/-! ### The end of bring-up and testing -/

theorem SeqState.mem_weaken {x : SeqState} {l l' : List SeqState} (h : x ∈ l) (hs : (l.all fun y => l'.contains y) = true) :
    x ∈ l' := by simpa using List.all_eq_true.mp hs x h

/-- A channel without work leaves for FAILED, ABSENT or DONE. -/
theorem Channel.Orderly.leave {e : Setting} {a : Channel} (ho : a.Orderly) (q : Sequencer)
    (source : a.seq.state ∈ [SeqState.powering, .identifying, .selecting, .queued, .done])
    (target : q.state ∈ [SeqState.failed, .absent, .done])
    (ident : q.ident = .idle) (wait : q.supplyWait = false) : ChanMove e a { a with seq := q } := by
  have hx : a.seq.state ≠ .testing ∧ a.seq.state ≠ .analysing :=
    ⟨ne_of_mem_of_not_mem source (by decide), ne_of_mem_of_not_mem source (by decide)⟩
  have heq : ({ a with seq := q } : Channel) = { a with seq := q, march := none, analyser := none, ds := a.ds } := by
    rw [← ho.march_none hx.1, ← ho.analyser_none hx.2]
  rw [heq]
  exact .leave q a.ds (SeqState.mem_weaken source (by decide)) target ident wait (.inr ⟨hx.1, rfl⟩)

/-- A channel that has come to DONE waits there or opens. -/
theorem whenDone_moves {e : Setting} (a : Channel) (h : a.seq.state = .done) : ChanMoves e a (a.whenDone e.strap) := by
  unfold Channel.whenDone portWhenDone
  split
  · have : ({ a with seq := { a.seq with state := .done }, port := a.port } : Channel) = a := by rw [← h]
    rw [this]
  · exact .single (.shift _ _ _ (by simp [h]) (by simp) rfl rfl (h ▸ opens_portOk (strap := e.strap).1) (h ▸ opens_portOk.2) (.refl _))

/-- The channel `a`, once what it worked on is given up, is `b`: it may leave for FAILED, ABSENT or DONE. -/
structure Leaves (e : Setting) (a b : Channel) : Prop where
  ident : b.seq.ident = .idle
  wait : b.seq.supplyWait = false
  move : ∀ q : Sequencer, q.state ∈ [SeqState.failed, .absent, .done] → q.ident = .idle → q.supplyWait = false →
    ChanMove e a { b with seq := q }

section
variable {e : Setting} {a b : Channel}

theorem Channel.Orderly.leaves (ho : a.Orderly) (h : a.seq.state ∈ [SeqState.selecting, .queued, .done]) : Leaves e a a :=
  ⟨ho.ident_idle (ne_of_mem_of_not_mem h (by decide)), ho.wait_false (ne_of_mem_of_not_mem h (by decide)),
    fun q => ho.leave q (SeqState.mem_weaken h (by decide))⟩

/-- A stopped identification leaves a channel without work. -/
theorem Channel.Orderly.leaves_early (ho : a.Orderly) (h : a.seq.state.early) (q : Sequencer) (ident : q.ident = .idle)
    (wait : q.supplyWait = false) : Leaves e a { a with seq := q } :=
  ⟨ident, wait, fun q => ho.leave q (by rcases h with h | h | h <;> simp [h])⟩

theorem Channel.Orderly.leaves_analysing (ho : a.Orderly) (h : a.seq.state = .analysing) :
    Leaves e a { a with analyser := none } := by
  refine ⟨ho.ident_idle (by simp [h]), ho.wait_false (by simp [h]), fun q target ident wait => ?_⟩
  have hm : a.march = none := ho.march_none (by simp [h])
  have : ({ a with analyser := none, seq := q } : Channel) =
      { a with seq := q, march := none, analyser := none, ds := a.ds } := by rw [← hm]
  rw [this]
  exact .leave q a.ds (by simp [h]) target ident wait (.inr ⟨by simp [h], rfl⟩)

theorem Channel.Orderly.leaves_testing (ho : a.Orderly) (h : a.seq.state = .testing) (d : Downstream)
    (hd : d.refreshWithheld = false) : Leaves e a { a with march := none, ds := d } := by
  refine ⟨ho.ident_idle (by simp [h]), ho.wait_false (by simp [h]), fun q target ident wait => ?_⟩
  have hn : a.analyser = none := ho.analyser_none (by simp [h])
  have : ({ a with march := none, ds := d, seq := q } : Channel) =
      { a with seq := q, march := none, analyser := none, ds := d } := by rw [← hn]
  rw [this]
  exact .leave q d (by simp [h]) target ident wait (.inl hd)

theorem Leaves.failed (h : Leaves e a b) (why : Reason) : ChanMoves e a (b.failed why) :=
  .single (h.move _ (by simp) h.ident h.wait)

theorem Leaves.whenDone (h : Leaves e a b) (r : EndResult) (why : Reason) :
    ChanMoves e a (({ b with seq := { b.seq with result := r, reason := why } } : Channel).whenDone e.strap) :=
  .trans (.single (h.move { b.seq with state := .done, result := r, reason := why } (by simp) h.ident h.wait))
    (whenDone_moves { b with seq := { b.seq with state := .done, result := r, reason := why } } rfl)

theorem Leaves.untested (h : Leaves e a b) : ChanMoves e a (b.untested e.strap) := h.whenDone _ _

theorem Leaves.ended (h : Leaves e a b) (openFailed : Bool) : ChanMoves e a (b.ended e.strap openFailed) := by
  unfold Channel.ended
  split
  · exact h.failed _
  · exact h.whenDone _ _

end

theorem whenDone_idle (strap : BitVec 8) (ch : Channel) : (ch.whenDone strap).seq.state ∉ [SeqState.queued, .testing] := by
  unfold Channel.whenDone
  dsimp only
  split <;> decide

theorem failed_idle (why : Reason) (ch : Channel) : (ch.failed why).seq.state ∉ [SeqState.queued, .testing] := by
  simp [Channel.failed]

theorem ended_idle (strap : BitVec 8) (openFailed : Bool) (ch : Channel) :
    (ch.ended strap openFailed).seq.state ∉ [SeqState.queued, .testing] := by
  unfold Channel.ended
  split
  · exact failed_idle _ _
  · exact whenDone_idle strap _

@[simp] theorem ended_remap (strap : BitVec 8) (openFailed : Bool) (ch : Channel) :
    (ch.ended strap openFailed).remap = ch.remap := by
  unfold Channel.ended
  split <;> rfl

/-- A channel gives up what it worked on and becomes FAILED. -/
theorem keeps_fail (s : State) (c : Chan) (f : Channel → Channel) (why : Reason)
    (source : Ordered s → s.seqState c ∉ [SeqState.queued, .testing]) (remap : (f (s.chan c)).remap = (s.chan c).remap)
    (leaves : Ordered s → Leaves (s.setting steady) (s.chan c) (f (s.chan c))) :
    Keeps steady s ((s.updChan c f).failChannel c why) := by
  rw [failChannel_eq, updChan_updChan]
  refine Keeps.trans ?_ (keeps_board _ _)
  exact keeps_updChan s c (fun ch => (f ch).failed why) (congrArg shadowEntriesOf remap)
    (fun ho => sameSlot_of_idle (source ho) (failed_idle why _)) fun ho => (leaves ho).failed why

/-- The same with nothing to give up. -/
theorem keeps_failChannel (s : State) (c : Chan) (why : Reason)
    (source : Ordered s → s.seqState c ∉ [SeqState.queued, .testing])
    (leaves : Ordered s → Leaves (s.setting steady) (s.chan c) (s.chan c)) : Keeps steady s (s.failChannel c why) := by
  rw [failChannel_eq]
  refine Keeps.trans ?_ (keeps_board _ _)
  exact keeps_updChan s c (Channel.failed why) rfl (fun ho => sameSlot_of_idle (source ho) (failed_idle why _))
    fun ho => (leaves ho).failed why

theorem keeps_failSelecting (s : State) (c : Chan) (why : Reason) (h : s.seqState c = .selecting) :
    Keeps steady s (s.failChannel c why) :=
  keeps_failChannel s c why (fun _ => by simp [h]) fun ho => (ho.chans c).leaves (by unfold State.seqState at h; simp [h])

theorem keeps_failDone (s : State) (c : Chan) (why : Reason) (h : s.seqState c = .done) :
    Keeps steady s (s.failChannel c why) :=
  keeps_failChannel s c why (fun _ => by simp [h]) fun ho => (ho.chans c).leaves (by unfold State.seqState at h; simp [h])

/-- Identification stops, and the channel fails. -/
theorem keeps_stopIdentify_fail (s : State) (c : Chan) (why : Reason) (h : s.seqState c = .identifying) :
    Keeps steady s ((s.stopIdentify c).failChannel c why) := by
  have hx : ((s.stopIdentify c).chan c).seq.state = .identifying := by rw [stopIdentify_eq, chan_updChan_same]; exact h
  refine (keeps_stopIdentify s c (.inr (.inl h))).trans
    (keeps_failChannel _ c why (fun _ => by simp [State.seqState, hx]) fun ho => ?_)
  have hi : ((s.stopIdentify c).chan c).seq.ident = .idle := by rw [stopIdentify_eq, chan_updChan_same]; rfl
  exact (ho.chans c).leaves_early (.inr (.inl hx)) _ hi ((ho.chans c).wait_false (by simp [hx]))

end

end Sys2Proof.Machine
end

section
/-! The arbiter and the sweeps: grants, releases and departures keep what `Keeps` says, and so does every step of a sweep. -/

namespace Sys2Proof.Machine

/-! ### Grants and releases as updates of one channel -/

/-- The sweep `m` goes on: the operations of its current block are handed over (R27). -/
def Channel.sweeps (m : Sweep) (ch : Channel) : Channel :=
  { ch with march := some m, ds := { ch.ds with ops := ch.ds.ops ++ (ch.geometry.map m.blockOps).getD [] } }

theorem foldl_handOver_eq (ops : List DsOp) (s : State) (c : Chan) :
    ops.foldl (fun x op => x.handOver c op) s =
      s.updChan c fun ch => { ch with ds := { ch.ds with ops := ch.ds.ops ++ ops } } := by
  have := foldl_handOver_shared ops s c
  refine state_ext (by rw [this]; rfl) (by rw [this]; rfl) (fun d => ?_) (by rw [this]; rfl) (by rw [this]; rfl)
    (by rw [this]; rfl) (by rw [this]; rfl) (by rw [this]; rfl) (by rw [this]; rfl)
  rw [chan_updChan]
  split
  · subst_vars; exact foldl_handOver_chan ops s _
  · exact foldl_handOver_chan_ne ops s ‹_›

theorem setMarch_handSweepBlock (s : State) (c : Chan) (m : Sweep) :
    (s.setMarch c (some m)).handSweepBlock c = s.updChan c (Channel.sweeps m) := by
  unfold State.handSweepBlock
  simp only [chan_setMarch_same]
  cases hg : (s.chan c).geometry with
  | none => exact updChan_congr s c (by simp [Channel.sweeps, hg])
  | some g =>
    show List.foldl (fun s op => s.handOver c op) (s.setMarch c (some m)) (m.blockOps g) = _
    rw [foldl_handOver_eq, State.setMarch, updChan_updChan]
    exact updChan_congr s c (by simp [Channel.sweeps, hg])

/-- The channel as it is granted a slot (R97, R111). -/
def Channel.granted (ch : Channel) : Channel :=
  let tested : Channel :=
    { ch with seq := { ch.seq with state := .testing, entered := ch.seq.entered ++ [ch.seq.nextBank] } }
  match ch.geometry with
  | some g => tested.sweeps (Sweep.start ch.seq.march ch.seq.nextBank g)
  | none => tested

theorem grantSlot_eq (s : State) (c : Chan) :
    s.grantSlot c = (s.updArbiter fun a => { a with holders := a.holders ++ [c] }).updChan c Channel.granted := by
  unfold State.grantSlot State.startSweep
  simp only [chan_updSeq_same, chan_updArbiter]
  cases hg : (s.chan c).geometry with
  | none => exact updChan_congr _ c (by simp [Channel.granted, hg])
  | some g =>
    simp only [setMarch_handSweepBlock, State.updSeq, updChan_updChan]
    exact updChan_congr _ c (by simp [Channel.granted, hg, Sequencer.march])

/-- The channel as it asks for a slot (R111). -/
def Channel.queued (ch : Channel) : Channel := { ch with seq := { ch.seq with state := .queued } }

theorem requestSlot_eq (s : State) (c : Chan) :
    s.requestSlot c =
      if s.arbiter.holders.length < s.arbiter.slots then
        (s.updArbiter fun a => { a with holders := a.holders ++ [c] }).updChan c fun ch => ch.queued.granted
      else (s.updArbiter fun a => { a with waitQueue := a.waitQueue ++ [c] }).updChan c Channel.queued := by
  rcases requestSlot_cases s c with ⟨h, heq⟩ | ⟨h, heq⟩
  · rw [heq, if_pos h, grantSlot_eq]
    exact updChan_updChan (s.updArbiter fun a => { a with holders := a.holders ++ [c] }) c Channel.queued _
  · rw [heq, if_neg (Nat.not_lt.mpr h)]; rfl

theorem releaseSlot_eq (s : State) (c : Chan) :
    s.releaseSlot c =
      match s.arbiter.waitQueue.head? with
      | none => s.updArbiter fun a => slotPassed a c
      | some d => (s.updArbiter fun a => slotPassed a c).updChan d Channel.granted := by
  unfold State.releaseSlot
  simp only [arbiter_updArbiter]
  cases hq : s.arbiter.waitQueue with
  | nil => simp [State.updArbiter, slotPassed, hq]
  | cons d rest => simp [grantSlot_eq, State.updArbiter, slotPassed, hq]

@[simp] theorem granted_remap (ch : Channel) : ch.granted.remap = ch.remap := by
  unfold Channel.granted; split <;> rfl

@[simp] theorem granted_state (ch : Channel) : ch.granted.seq.state = .testing := by
  unfold Channel.granted; split <;> rfl

/-- A grant is one move of a QUEUED channel. -/
theorem granted_move {e : Setting} {a : Channel} (ho : a.Orderly) (h : a.seq.state = .queued) : ChanMove e a a.granted := by
  have hm : a.march = none := ho.march_none (by simp [h])
  unfold Channel.granted
  split
  next g hg => exact .grant _ _ _ h (fun x hx => by obtain rfl := Option.some.inj hx; exact ⟨rfl, rfl⟩) rfl
  next => exact .grant a.march a.ds _ h (fun x hx => by simp [hm] at hx) rfl

section
variable {steady : Prop} {s : State} {c : Chan}

theorem Ordered.head_queued (ho : Ordered s) {d : Chan} (h : s.arbiter.waitQueue.head? = some d) : s.seqState d = .queued :=
  (ho.queue.waiting d).mp (List.mem_of_head? h)

/-- A change of the channels and the arbiter's lists alone. -/
theorem Keeps.of_queue {t : State} (frame : t = { s with chans := t.chans, arbiter := t.arbiter })
    (entries : ∀ d, shadowEntriesOf (t.chan d).remap = shadowEntriesOf (s.chan d).remap)
    (moves : Ordered s → ∀ d, ChanMoves (s.setting steady) (s.chan d) (t.chan d))
    (queue : Ordered s → QueueLaw t) (arbiter : Ordered s → ArbiterLaw s → ArbiterLaw t) : Keeps steady s t where
  inReset := by rw [frame]
  setting := by rw [frame]; rfl
  pending := by rw [frame]
  pool h := ⟨shadowLaw_of_entries (by rw [frame]) entries h.1, by rw [frame]; exact h.2⟩
  ordered h := h.of_moves (moves h) (queue h)
  arbiter := arbiter
  moves := moves
  holders _ _ _ _ hi := by rw [frame]; exact hi

theorem moves_ite {e : Setting} {p : Prop} [Decidable p] {a b b' : Channel} (h : p → ChanMoves e a b)
    (h' : ¬p → ChanMoves e a b') : ChanMoves e a (if p then b else b') := by
  split
  next hp => exact h hp
  next hp => exact h' hp

/-- A channel asks for a slot, and takes one if one is free (R111). -/
theorem keeps_requestSlot (f : Channel → Channel) (source : Ordered s → s.seqState c ∉ [SeqState.queued, .testing])
    (remap : (f (s.chan c)).remap = (s.chan c).remap)
    (moves : Ordered s → ChanMoves (s.setting steady) (s.chan c) (f (s.chan c)).queued) :
    Keeps steady s ((s.updChan c f).requestSlot c) := by
  have hnot (ho : Ordered s) : s.seqState c ≠ .queued ∧ s.seqState c ≠ .testing := by simpa using source ho
  rw [requestSlot_eq]
  by_cases hroom : s.arbiter.holders.length < s.arbiter.slots
  · rw [if_pos (show (s.updChan c f).arbiter.holders.length < (s.updChan c f).arbiter.slots from hroom)]
    have hchan (d : Chan) : (((s.updChan c f).updArbiter fun a => { a with holders := a.holders ++ [c] }).updChan c
        fun ch => ch.queued.granted).chan d = if d = c then (f (s.chan c)).queued.granted else s.chan d := by
      simp only [chan_updChan, chan_updArbiter]
      split <;> simp_all
    refine .of_queue rfl (fun d => ?_) (fun ho d => ?_) (fun ho => ⟨fun d => ?_, fun d => ?_, ho.queue.wait_nodup, ?_⟩) ?_
    · rw [hchan]
      split
      next h => subst h; rw [granted_remap]; exact congrArg shadowEntriesOf remap
      next => rfl
    · rw [hchan]
      refine moves_ite (fun h => ?_) fun _ => .refl
      subst h
      exact (moves ho).tail
        (granted_move ((moves ho).keep (P := fun _ => True) (fun _ _ _ _ => id) (ho.chans d) trivial).1 rfl)
    · refine (ho.queue.waiting d).trans ?_
      unfold State.seqState
      rw [hchan]
      split
      next h => subst h; simpa [State.seqState] using (hnot ho).1
      next => rfl
    · unfold State.seqState
      rw [hchan]
      refine List.mem_append.trans ?_
      rw [List.mem_singleton]
      split
      next h => simp [h]
      next h => simp [h, ho.queue.holding d, State.seqState]
    · refine ho.queue.hold_nodup.append (List.nodup_singleton c) fun x hx hx' => ?_
      obtain rfl := List.mem_singleton.mp hx'
      exact (hnot ho).2 ((ho.queue.holding x).mp hx)
    · rintro - ⟨-, hwait⟩
      refine ⟨?_, fun hne => absurd (hwait hne) hroom.ne⟩
      show (s.arbiter.holders ++ [c]).length ≤ s.arbiter.slots
      rw [List.length_append]
      exact hroom
  · rw [if_neg (show ¬(s.updChan c f).arbiter.holders.length < (s.updChan c f).arbiter.slots from hroom)]
    have hchan (d : Chan) : (((s.updChan c f).updArbiter fun a => { a with waitQueue := a.waitQueue ++ [c] }).updChan c
        Channel.queued).chan d = if d = c then (f (s.chan c)).queued else s.chan d := by
      simp only [chan_updChan, chan_updArbiter]
      split <;> simp_all
    refine .of_queue rfl (fun d => ?_) (fun ho d => ?_) (fun ho => ⟨fun d => ?_, fun d => ?_, ?_, ho.queue.hold_nodup⟩) ?_
    · rw [hchan]
      split
      next h => subst h; exact congrArg shadowEntriesOf remap
      next => rfl
    · rw [hchan]
      refine moves_ite (fun h => ?_) fun _ => .refl
      subst h; exact moves ho
    · unfold State.seqState
      rw [hchan]
      refine List.mem_append.trans ?_
      rw [List.mem_singleton]
      split
      next h => simp [h, Channel.queued]
      next h => simp [h, ho.queue.waiting d, State.seqState]
    · refine (ho.queue.holding d).trans ?_
      unfold State.seqState
      rw [hchan]
      split
      next h => subst h; simpa [Channel.queued, State.seqState] using (hnot ho).2
      next => rfl
    · refine ho.queue.wait_nodup.append (List.nodup_singleton c) fun x hx hx' => ?_
      obtain rfl := List.mem_singleton.mp hx'
      exact (hnot ho).1 ((ho.queue.waiting x).mp hx)
    · rintro - ⟨hle, -⟩
      exact ⟨hle, fun _ => hle.antisymm (Nat.le_of_not_lt hroom)⟩

/-- A QUEUED channel leaves the wait queue without a grant (R113). -/
theorem keeps_depart (f : Channel → Channel) (source : s.seqState c = .queued)
    (target : (f (s.chan c)).seq.state ∉ [SeqState.queued, .testing]) (remap : (f (s.chan c)).remap = (s.chan c).remap)
    (moves : Ordered s → ChanMoves (s.setting steady) (s.chan c) (f (s.chan c))) :
    Keeps steady s ((s.departQueue c).updChan c f) := by
  simp only [List.mem_cons, List.not_mem_nil, or_false, not_or] at target
  have hchan (d : Chan) : ((s.departQueue c).updChan c f).chan d = if d = c then f (s.chan c) else s.chan d :=
    chan_updChan ..
  refine .of_queue rfl (fun d => ?_) (fun ho d => ?_)
    (fun ho => ⟨fun d => ?_, fun d => ?_, ho.queue.wait_nodup.filter _, ho.queue.hold_nodup⟩) ?_
  · rw [hchan]
    split
    next h => subst h; exact congrArg shadowEntriesOf remap
    next => rfl
  · rw [hchan]
    refine moves_ite (fun h => ?_) fun _ => .refl
    subst h; exact moves ho
  · unfold State.seqState
    rw [hchan]
    refine List.mem_filter.trans ?_
    split
    next h => simpa [h] using target.1
    next h => simp [h, ho.queue.waiting d, State.seqState]
  · refine (ho.queue.holding d).trans ?_
    unfold State.seqState at source ⊢
    rw [hchan]
    split
    next h => subst h; simpa [source] using target.2
    next => rfl
  · rintro - ⟨hle, hwait⟩
    refine ⟨hle, fun hne => hwait fun hnil => hne ?_⟩
    show s.arbiter.waitQueue.filter _ = []
    rw [hnil]; rfl

/-- The arbiter's lists are lawful again once `c` has released its slot. -/
theorem slotPassed_arbiterLaw {a : Arbiter} (hc : c ∈ a.holders) (hn : a.holders.Nodup)
    (h : a.holders.length ≤ a.slots ∧ (a.waitQueue ≠ [] → a.holders.length = a.slots)) :
    (slotPassed a c).holders.length ≤ a.slots ∧
      ((slotPassed a c).waitQueue ≠ [] → (slotPassed a c).holders.length = a.slots) := by
  obtain ⟨slots, holders, wait⟩ := a
  obtain ⟨hle, hfull⟩ := h
  have hpos : 0 < holders.length := List.length_pos_of_mem hc
  have hlen : (holders.filter fun h => h != c).length = holders.length - 1 := by
    rw [← List.Nodup.erase_eq_filter hn, List.length_erase_of_mem hc]
  cases wait with
  | nil => simp only [slotPassed, hlen, List.length_append] at *; simp; omega
  | cons d rest =>
    have := hfull nofun
    simp only [slotPassed, hlen, List.length_append] at *
    simp
    omega

/-- What the release of `c`'s slot does to the channels: the head of the wait queue is granted it. -/
theorem releaseSlot_chan_eq (s : State) (c d : Chan) :
    (s.releaseSlot c).chan d = if s.arbiter.waitQueue.head? = some d then (s.chan d).granted else s.chan d := by
  rw [releaseSlot_eq]
  cases h : s.arbiter.waitQueue.head? with
  | none => simp
  | some x =>
    by_cases hx : d = x
    · subst hx; simp
    · simp [chan_updChan_ne _ _ hx, Ne.symm hx]

theorem releaseSlot_remap (s : State) (c d : Chan) : ((s.releaseSlot c).chan d).remap = (s.chan d).remap := by
  rw [releaseSlot_chan_eq]
  split
  · exact granted_remap _
  · rfl

/-- The head of the wait queue leads it, and is not in the rest. -/
theorem Ordered.mem_waitQueue (ho : Ordered s) (d : Chan) :
    (s.arbiter.waitQueue.head? = some d → d ∉ s.arbiter.waitQueue.tail) ∧
      (d ∈ s.arbiter.waitQueue ↔ s.arbiter.waitQueue.head? = some d ∨ d ∈ s.arbiter.waitQueue.tail) := by
  have hn := ho.queue.wait_nodup
  cases hq : s.arbiter.waitQueue with
  | nil => simp
  | cons x rest =>
    rw [hq] at hn
    refine ⟨fun h => ?_, by simp [eq_comm]⟩
    obtain rfl := Option.some.inj h
    exact (List.nodup_cons.mp hn).1

/-- The channels once `c` has released its slot and changed to what `f` makes of it. -/
theorem released_chan (ho : Ordered s) (source : s.seqState c = .testing) (g f : Channel → Channel) (d : Chan) :
    (((s.updChan c g).releaseSlot c).updChan c f).chan d =
      if d = c then f (g (s.chan c))
      else if s.arbiter.waitQueue.head? = some d then (s.chan d).granted else s.chan d := by
  have hhead : s.arbiter.waitQueue.head? ≠ some c := fun h => by simp [ho.head_queued h] at source
  rw [chan_updChan, releaseSlot_chan_eq, releaseSlot_chan_eq]
  simp only [arbiter_updChan, if_neg hhead, chan_updChan_same]
  by_cases hd : d = c
  · rw [if_pos hd, if_pos hd]
  · simp only [if_neg hd, chan_updChan_ne _ _ hd]

theorem released_frame (g f : Channel → Channel) :
    ((s.updChan c g).releaseSlot c).updChan c f =
      { s with chans := (((s.updChan c g).releaseSlot c).updChan c f).chans, arbiter := slotPassed s.arbiter c } := by
  conv_lhs => rw [releaseSlot_shared]
  conv_rhs => rw [releaseSlot_shared]
  rfl

/-- A channel leaves TESTING, and its slot passes on (R97, R112). -/
theorem keeps_release (g f : Channel → Channel) (source : Ordered s → s.seqState c = .testing)
    (target : (f (g (s.chan c))).seq.state ∉ [SeqState.queued, .testing])
    (remapg : (g (s.chan c)).remap = (s.chan c).remap) (entries : ∀ ch, shadowEntriesOf (f ch).remap = shadowEntriesOf ch.remap)
    (moves : Ordered s → ChanMoves (s.setting steady) (s.chan c) (f (g (s.chan c)))) :
    Keeps steady s (((s.updChan c g).releaseSlot c).updChan c f) := by
  simp only [List.mem_cons, List.not_mem_nil, or_false, not_or] at target
  have harb : (((s.updChan c g).releaseSlot c).updChan c f).arbiter = slotPassed s.arbiter c := by
    rw [released_frame]
  refine .of_queue (by rw [harb]; exact released_frame g f) (fun d => ?_) (fun ho d => ?_)
    (fun ho => ⟨fun d => ?_, fun d => ?_, ?_, ?_⟩) fun ho h => ?_
  · rw [chan_updChan]
    split
    next hd => subst hd; rw [entries, releaseSlot_remap, chan_updChan_same, remapg]
    next hd => rw [releaseSlot_remap, chan_updChan_ne _ _ hd]
  · rw [released_chan ho (source ho)]
    refine moves_ite (fun h => ?_) fun _ => moves_ite (fun h => ?_) fun _ => .refl
    · subst h; exact moves ho
    · exact .single (granted_move (ho.chans d) (ho.head_queued h))
  · obtain ⟨hfresh, hmem⟩ := ho.mem_waitQueue d
    rw [ho.queue.waiting] at hmem
    rw [harb]
    have hx := source ho
    unfold State.seqState at hx hmem ⊢
    rw [released_chan ho (source ho)]
    show d ∈ s.arbiter.waitQueue.tail ↔ _
    split
    next h =>
      subst h
      exact iff_of_false (fun hd => by simp [hx] at hmem; exact hmem.2 hd) target.1
    next h =>
      split
      next hd => simpa using hfresh hd
      next hd => simpa [hd] using hmem.symm
  · have hhead : s.arbiter.waitQueue.head? = some d → d ≠ c := fun h e => by
      exact absurd (source ho) (by rw [← e, ho.head_queued h]; decide)
    rw [harb]
    unfold State.seqState
    rw [released_chan ho (source ho)]
    refine List.mem_append.trans ?_
    rw [List.mem_filter, ho.queue.holding, Option.mem_toList]
    split
    next h =>
      have hc : s.arbiter.waitQueue.head? ≠ some c := fun e => hhead (h ▸ e) h
      simpa [h, hc] using target.2
    next h =>
      split
      next hd => simp [hd]
      next hd => simp [hd, h, State.seqState]
  · rw [harb]; exact ho.queue.wait_nodup.tail
  · rw [harb]
    refine (ho.queue.hold_nodup.filter _).append (by cases s.arbiter.waitQueue.head? <;> simp) fun x hx hx' => ?_
    have h1 := (ho.queue.holding x).mp (List.mem_of_mem_filter hx)
    have h2 := ho.head_queued (Option.mem_toList.mp hx')
    simp [h1] at h2
  · unfold ArbiterLaw
    rw [harb]
    exact slotPassed_arbiterLaw ((ho.queue.holding c).mpr (source ho)) ho.queue.hold_nodup h

end

end Sys2Proof.Machine
end

section
/-! Selection, bring-up, loss and testing keep what `Keeps` says. -/

namespace Sys2Proof.Machine

section
variable {steady : Prop} {s : State} {c : Chan}

/-! ### Selection (R94 to R96) -/

theorem keeps_take (s : State) (c : Chan) (f : Channel → Channel) (g : Option Geometry) (q : Sequencer)
    (hf : f (s.chan c) = { s.chan c with geometry := g, seq := q }) (source : s.seqState c = .selecting)
    (target : q.state = .selecting) (ident : q.ident = (s.chan c).seq.ident)
    (wait : q.supplyWait = (s.chan c).seq.supplyWait) : Keeps steady s (s.updChan c f) := by
  refine keeps_updChan s c f (by rw [hf]) (fun _ => ?_) fun _ => .single ?_
  · rw [hf]; exact ⟨by simp [target, source], by simp [target, source]⟩
  · rw [hf]; exact .take g q source target ident wait

theorem keeps_finishUntested (h : s.seqState c = .selecting) : Keeps steady s (s.finishUntested c) := by
  rw [finishUntested_eq]
  refine Keeps.trans ?_ (keeps_board _ _)
  refine keeps_updChan s c _ rfl (fun _ => sameSlot_of_idle (by simp [h]) (whenDone_idle _ _)) fun ho => ?_
  exact ((ho.chans c).leaves (by unfold State.seqState at h; simp [h])).untested

/-- A selection that asks for a slot (R96, R111). -/
theorem keeps_requestFirst (h : s.seqState c = .selecting) (hl : s.loader.state ≠ .loading) :
    Keeps steady s ((s.updSeq c fun q => { q with nextBank := 0 }).requestSlot c) := by
  refine keeps_requestSlot _ (fun _ => by simp [h]) rfl fun ho => .single ?_
  have hn : (s.chan c).analyser = none := (ho.chans c).analyser_none (by unfold State.seqState at h; simp [h])
  have : ({ s.chan c with seq := { (s.chan c).seq with nextBank := 0 } } : Channel).queued =
      { s.chan c with seq := { (s.chan c).seq with state := .queued, nextBank := 0 }, analyser := none } := by
    rw [← hn]; rfl
  rw [this]
  exact .enqueue 0 (.inl ⟨h, hl⟩)

/-- The channel has its effective identity (R95). -/
def Channel.chose (v : BitVec 16) (viaAlias : Bool) (ch : Channel) : Channel :=
  { ch with seq := { ch.seq with effective := some v, aliasUsed := viaAlias } }

/-- The channel has its geometry and its profile (R4, R95). -/
def Channel.selects (v : BitVec 16) (viaAlias : Bool) (g : Geometry) (profile : Option (Nat × Profile)) (ch : Channel) :
    Channel :=
  { ch with geometry := some g, seq := { ch.seq with effective := some v, aliasUsed := viaAlias, profile := profile } }

theorem selectOn_eq (s : State) (c : Chan) (v : BitVec 16) (viaAlias : Bool) (w : Width) (profile : Option (Nat × Profile))
    (test : Bool) :
    s.selectOn c v viaAlias w profile test =
      match decodeIdentity v w with
      | none => (s.updChan c (Channel.chose v viaAlias)).failChannel c .geometry
      | some g =>
        let s' := s.updChan c (Channel.selects v viaAlias g profile)
        if test then (s'.updSeq c fun q => { q with nextBank := 0 }).requestSlot c else s'.finishUntested c := by
  unfold State.selectOn
  cases decodeIdentity v w with
  | none => rfl
  | some g => simp only [State.updSeq, State.setGeometry, updChan_updChan]; rfl

theorem keeps_selectOn (v : BitVec 16) (viaAlias : Bool) (w : Width) (profile : Option (Nat × Profile)) (test : Bool)
    (h : s.seqState c = .selecting) (hl : test = true → s.loader.state ≠ .loading) :
    Keeps steady s (s.selectOn c v viaAlias w profile test) := by
  rw [selectOn_eq]
  cases decodeIdentity v w with
  | none =>
    exact (keeps_take s c (Channel.chose v viaAlias) (s.chan c).geometry _ rfl h h rfl rfl).trans
      (keeps_failSelecting _ c _ (by rw [seqState_updChan, if_pos rfl]; exact h))
  | some g =>
    refine (keeps_take s c (Channel.selects v viaAlias g profile) (some g) _ rfl h h rfl rfl).trans ?_
    have h' : (s.updChan c (Channel.selects v viaAlias g profile)).seqState c = .selecting := by
      rw [seqState_updChan, if_pos rfl]; exact h
    dsimp only
    split
    next htest => exact keeps_requestFirst h' (hl htest)
    next => exact keeps_finishUntested h'

theorem keeps_selectChannel (h : s.seqState c = .selecting) (hl : s.loader.state ≠ .loading) :
    Keeps steady s (s.selectChannel c) := by
  unfold State.selectChannel
  split
  · exact keeps_selectOn _ _ _ _ _ h fun _ => hl
  · exact .refl s

theorem keeps_selectUnread (h : s.seqState c = .selecting) : Keeps steady s (s.selectUnread c) := by
  unfold State.selectUnread
  split
  · exact keeps_selectOn _ _ _ _ _ h nofun
  · exact .refl s

theorem keeps_selectIfWaiting (c : Chan) (hl : s.loader.state ≠ .loading) : Keeps steady s (s.selectIfWaiting c) := by
  unfold State.selectIfWaiting
  split
  next h => exact keeps_selectChannel h hl
  next => exact .refl s

/-! ### Identity read and width check (R90 to R94) -/

/-- A step of the identity read or the width check, in IDENTIFYING. -/
theorem keeps_identify (s : State) (c : Chan) (f : Sequencer → Sequencer) (source : Ordered s → s.seqState c = .identifying)
    (frame : f (s.chan c).seq = { (s.chan c).seq with ident := (f (s.chan c).seq).ident,
                                                      identityRead := (f (s.chan c).seq).identityRead }) :
    Keeps steady s (s.updSeq c f) := by
  refine keeps_updChan s c _ rfl (fun _ => ?_) fun ho => ?_
  · show SameSlot _ (f (s.chan c).seq).state
    rw [frame]; exact .rfl' _
  · have hx : (f (s.chan c).seq).state = .identifying := by rw [frame]; exact source ho
    refine .single (.bringUp _ (s.chan c).ds (.inr (.inl (source ho))) (.inr (.inl hx)) (fun _ => hx) (fun hw => ?_) (.refl _))
    rw [frame] at hw
    have := (ho.chans c).wait_false (by rw [show (s.chan c).seq.state = _ from source ho]; decide)
    simp [this] at hw

theorem isLiveSweep_widthOp (n : Nat) : (widthOp n).isLiveSweep = false := rfl

theorem Ordered.identifying (ho : Ordered s) (h : (s.chan c).seq.ident ≠ .idle) : s.seqState c = .identifying :=
  (ho.chans c).ident h

/-- The channel has its width, and is SELECTING (R93, R94). -/
def Channel.judged (w : Width) (ch : Channel) : Channel :=
  { ch with
    seq := { ch.seq with ident := .idle, width := some w, state := .selecting },
    ds := { ch.ds with written := if w = .half then dropUpperLanes ch.ds.written else ch.ds.written } }

theorem judge_eq (s : State) (c : Chan) (r1 r2 : Block) :
    s.judge c r1 r2 =
      match judgeWidth r1 r2 with
      | none => ((s.updSeq c fun q => { q with ident := .idle }).failChannel c .width).settle
      | some w =>
        if s.loader.state = .loading then s.updChan c (Channel.judged w)
        else ((s.updChan c (Channel.judged w)).selectChannel c).settle := by
  unfold State.judge
  cases judgeWidth r1 r2 with
  | none => rfl
  | some w => simp only [State.updSeq, State.updDs, updChan_updChan]; rfl

theorem keeps_judge (r1 r2 : Block) (h : (s.chan c).seq.ident ≠ .idle) : Keeps steady s (s.judge c r1 r2) := by
  have hwait (ho : Ordered s) : (s.chan c).seq.supplyWait = false :=
    (ho.chans c).wait_false (by rw [show (s.chan c).seq.state = _ from ho.identifying h]; decide)
  rw [judge_eq]
  cases judgeWidth r1 r2 with
  | none =>
    refine Keeps.trans ?_ (keeps_settle _)
    refine keeps_fail s c _ _ (fun ho => by simp [ho.identifying h]) rfl fun ho => ?_
    exact (ho.chans c).leaves_early (.inr (.inl (ho.identifying h))) _ rfl (hwait ho)
  | some w =>
    have hsel : Keeps steady s (s.updChan c (Channel.judged w)) :=
      keeps_bringUp s c _ _ _ rfl (fun ho => .inr (.inl (ho.identifying h))) (.inr (.inr rfl)) nofun
        (fun ho hw => by simp [hwait ho] at hw) ⟨rfl, id⟩
    dsimp only
    split
    next => exact hsel
    next hl =>
      have hx : (s.updChan c (Channel.judged w)).seqState c = .selecting := by rw [seqState_updChan, if_pos rfl]; rfl
      exact hsel.trans ((keeps_selectChannel hx hl).trans (keeps_settle _))

theorem keeps_widthStep (data : Block) : Keeps steady s (s.widthStep c data) := by
  have next (n m : Nat) (r r' : Block) (h : (s.chan c).seq.ident = .widthCheck n r) :
      Keeps steady s ((s.updSeq c fun q => { q with ident := .widthCheck m r' }).handWidthOp c m) :=
    (keeps_identify s c _ (fun ho => ho.identifying (by simp [h])) rfl).trans (keeps_handOver _ c (isLiveSweep_widthOp m))
  unfold State.widthStep
  split
  case h_1 h => exact next _ _ _ _ h
  case h_2 h => exact next _ _ _ _ h
  case h_3 h => exact next _ _ _ _ h
  case h_4 h => exact keeps_judge _ _ (by simp [h])
  case h_5 => exact .refl s

theorem keeps_widthCheckOpComplete (s : State) (c : Chan) (data : Block) : Keeps steady s (widthCheckOpComplete c data s) := by
  unfold widthCheckOpComplete
  split
  · exact (keeps_completeHead s c).trans (keeps_widthStep data)
  · exact keeps_completeHead s c
  · exact .refl s

theorem keeps_identityRead (v : BitVec 16) (h : (s.chan c).seq.ident ≠ .idle) : Keeps steady s (s.identityRead c v) := by
  unfold State.identityRead
  split
  · refine Keeps.trans ?_ (keeps_settle _)
    refine keeps_updChan s c _ rfl (fun ho => sameSlot_of_idle (by simp [ho.identifying h]) (by simp)) fun ho => .single ?_
    refine (ho.chans c).leave _ ?_ (by simp) rfl ((ho.chans c).wait_false ?_)
    all_goals simp [show (s.chan c).seq.state = _ from ho.identifying h]
  · exact (keeps_identify s c _ (fun ho => ho.identifying h) rfl).trans (keeps_handOver _ c (isLiveSweep_widthOp 1))

theorem keeps_identitySample (s : State) (c : Chan) (nibble : BitVec 4) : Keeps steady s (identitySample c nibble s) := by
  unfold identitySample
  split
  next h => exact keeps_identify s c _ (fun ho => ho.identifying (by simp [h])) rfl
  next h =>
    have hne : (s.chan c).seq.ident ≠ .idle := by simp [h]
    split
    · unfold State.acceptNibble
      split
      · exact keeps_identityRead _ hne
      · exact (keeps_identify s c _ (fun ho => ho.identifying hne) rfl).trans (keeps_updDs _ c _ ⟨rfl, id⟩)
    · split
      · exact keeps_identify s c _ (fun ho => ho.identifying hne) rfl
      · refine Keeps.trans ?_ (keeps_settle _)
        refine keeps_fail s c _ _ (fun ho => by simp [ho.identifying hne]) rfl fun ho => ?_
        exact (ho.chans c).leaves_early (.inr (.inl (ho.identifying hne))) _ rfl
          ((ho.chans c).wait_false (by rw [show (s.chan c).seq.state = _ from ho.identifying hne]; decide))
  all_goals exact .refl s

end

end Sys2Proof.Machine
end

section
/-! Sweeps, analyses and claims keep what `Keeps` says. -/

namespace Sys2Proof.Machine

/-- The March Engine is back in IDLE, its sweep given up (R31). -/
def Channel.abandoned (ch : Channel) : Channel :=
  { ch with march := none, ds := { ch.ds with refreshWithheld := false, ops := ch.ds.ops.map DsOp.discardSweep } }

theorem abandonSweep_eq (s : State) (c : Chan) : s.abandonSweep c = s.updChan c Channel.abandoned := by
  unfold State.abandonSweep State.mapOps State.updDs State.setMarch
  rw [updChan_updChan, updChan_updChan]; rfl

/-- The channel in ANALYSING, its analysis begun (R53). -/
def Channel.analysing (bank : Nat) (complete : Bool) (cap : Nat) (ch : Channel) : Channel :=
  ({ ch with seq := { ch.seq with state := .analysing } } : Channel).beginAnalysis bank complete cap

/-- The sweep of `bank` has completed (R28). -/
def Channel.swept (bank : Nat) (ch : Channel) : Channel :=
  { ch with march := none, seq := { ch.seq with fullySwept := ch.seq.fullySwept ++ [bank] } }

theorem completeSweep_eq (s : State) (c : Chan) (bank : Nat) :
    s.completeSweep c bank =
      ((s.updChan c (Channel.swept bank)).releaseSlot c).updChan c (Channel.analysing bank true s.shadow.cap) := by
  have : (s.setMarch c none).updSeq c (fun q => { q with fullySwept := q.fullySwept ++ [bank] }) =
      s.updChan c (Channel.swept bank) := by
    unfold State.setMarch State.updSeq
    rw [updChan_updChan]; rfl
  unfold State.completeSweep State.startAnalysis
  dsimp only
  rw [this, releaseSlot_shared]; rfl

theorem truncateSweep_eq (s : State) (c : Chan) (bank : Nat) :
    s.truncateSweep c bank =
      ((s.updChan c Channel.abandoned).releaseSlot c).updChan c (Channel.analysing bank false s.shadow.cap) := by
  unfold State.truncateSweep State.startAnalysis
  rw [abandonSweep_eq, releaseSlot_shared]; rfl

theorem analysing_idle (bank : Nat) (complete : Bool) (cap : Nat) (ch : Channel) :
    (ch.analysing bank complete cap).seq.state ∉ [SeqState.queued, .testing] := by
  have h : (ch.analysing bank complete cap).seq.state = .analysing := by
    unfold Channel.analysing
    rw [(beginAnalysis_keeps ..).1.frame]
  simp [h]

theorem analysing_entries (bank : Nat) (complete : Bool) (cap : Nat) (ch : Channel) :
    shadowEntriesOf (ch.analysing bank complete cap).remap = shadowEntriesOf ch.remap :=
  (beginAnalysis_shadowEntries ..).1

/-- The channel's SHADOW entries stand through an analysis up to its first claim. -/
theorem shadowEntries_beginAnalysis (ch : Channel) (bank : Nat) (complete : Bool) (cap : Nat) :
    shadowEntriesOf (ch.beginAnalysis bank complete cap).remap = shadowEntriesOf ch.remap :=
  (beginAnalysis_shadowEntries ..).1

section
variable {steady : Prop} {s : State} {c : Chan}

/-! ### The end of a sweep -/

theorem keeps_completeSweep {m : Sweep} (hm : (s.chan c).march = some m)
    (quiet : steady → m.pause = none) : Keeps steady s (s.completeSweep c m.bank) := by
  have source (ho : Ordered s) : s.seqState c = .testing := (ho.chans c).march (by simp [hm])
  rw [completeSweep_eq]
  refine keeps_release _ _ source (analysing_idle _ _ _ _) rfl (fun _ => analysing_entries ..) fun ho => .single ?_
  refine .analyse _ (s.chan c).ds m.bank true (source ho) (.inr ⟨m, hm, rfl⟩) ⟨rfl, rfl, rfl, rfl⟩ fun h hr => ?_
  rw [hr.withheld]
  simp [Channel.pausing, hm, quiet h]

/-- What a sweep cut short may change before it is given up. -/
theorem keeps_truncate (f : Channel → Channel) (bank : Nat) (q : Sequencer) (m : Option Sweep) (l : FailLog)
    (hf : f (s.chan c) = { s.chan c with seq := q, march := m, log := l })
    (source : Ordered s → s.seqState c = .testing)
    (hq : q.nextBank = (s.chan c).seq.nextBank ∧ q.ident = (s.chan c).seq.ident ∧
      q.supplyWait = (s.chan c).seq.supplyWait)
    (hl : l = (s.chan c).log) (hbank : bank = (s.chan c).seq.nextBank ∨ ∃ m, (s.chan c).march = some m ∧ bank = m.bank) :
    Keeps steady s ((s.updChan c f).truncateSweep c bank) := by
  rw [truncateSweep_eq, updChan_updChan]
  refine keeps_release _ _ source (analysing_idle _ _ _ _) (by rw [hf]; rfl) (fun _ => analysing_entries ..) fun ho => .single ?_
  rw [hf, hl]
  exact .analyse _ _ bank false (source ho) hbank ⟨rfl, hq.1, hq.2.1, hq.2.2⟩ fun _ _ => rfl

/-! ### A sweep goes on -/

/-- A sweep goes on, or begins to pause. -/
theorem keeps_sweep (f : Channel → Channel) {m : Sweep} (m' : Sweep) (d : Downstream) (hm : (s.chan c).march = some m)
    (hf : f (s.chan c) = { s.chan c with march := some m', ds := d }) (bank : m'.bank = m.bank)
    (refresh : steady → (s.chan c).RefreshOk → (f (s.chan c)).RefreshOk) : Keeps steady s (s.updChan c f) := by
  refine keeps_updChan s c f (by rw [hf]) (fun _ => ?_) fun _ => .single ?_
  · rw [hf]; exact .rfl' _
  · have := ChanMove.sweep (e := s.setting steady) m m' (s.chan c).log d hm bank (.inl rfl) (fun h => hf ▸ refresh h)
    rw [hf]; exact this

/-- Nothing is withheld while nothing pauses. -/
theorem Channel.refreshOk_of_unpaused {ch : Channel} {m : Sweep} (hm : ch.march = some m) (hp : m.pause = none)
    (hd : ch.ds.refreshWithheld = false) : ch.RefreshOk := by
  have : ch.pausing = false := by simp [Channel.pausing, hm, hp]
  exact ⟨by rw [hd, this], by simp [this]⟩

theorem Channel.RefreshOk.not_withheld_of_unpaused {ch : Channel} (h : ch.RefreshOk) {m : Sweep} (hm : ch.march = some m)
    (hp : m.pause = none) : ch.ds.refreshWithheld = false := by
  rw [h.withheld]; simp [Channel.pausing, hm, hp]

/-- The next block of an unpaused sweep is handed over. -/
theorem keeps_sweeps {m m' : Sweep} (hm : (s.chan c).march = some m) (bank : m'.bank = m.bank)
    (quiet : steady → m.pause = none) (quiet' : steady → m'.pause = none) :
    Keeps steady s (s.updChan c (Channel.sweeps m')) :=
  keeps_sweep _ m' _ hm rfl bank fun h hr =>
    Channel.refreshOk_of_unpaused rfl (quiet' h) (hr.not_withheld_of_unpaused hm (quiet h))

theorem keeps_beginPass {m m' : Sweep} (hm : (s.chan c).march = some m) (g : Geometry) (n pass : Nat)
    (bank : m'.bank = m.bank) (quiet : steady → m.pause = none) : Keeps steady s (s.beginPass c m' g n pass) := by
  unfold State.beginPass
  rw [setMarch_handSweepBlock]
  exact keeps_sweeps hm bank quiet fun _ => rfl

theorem keeps_nextElement {m : Sweep} (hm : (s.chan c).march = some m) (g : Geometry) (quiet : steady → m.pause = none) :
    Keeps steady s (s.nextElement c m g) := by
  unfold State.nextElement
  split
  · exact keeps_beginPass hm g _ _ rfl quiet
  · exact keeps_completeSweep hm quiet

theorem keeps_endElement {m : Sweep} (hm : (s.chan c).march = some m) (g : Geometry) (e : Element)
    (quiet : steady → m.pause = none) (done : (s.chan c).ds.ops.any DsOp.isLiveSweep = false) :
    Keeps steady s (s.endElement c m g e) := by
  unfold State.endElement
  split
  · unfold State.setMarch State.updDs
    rw [updChan_updChan]
    refine keeps_sweep _ _ _ hm rfl rfl fun _ _ => ⟨?_, fun _ => done⟩
    simp [Channel.pausing]
  · exact keeps_nextElement hm g quiet

theorem keeps_endBlock {m : Sweep} (hm : (s.chan c).march = some m) (g : Geometry) (e : Element)
    (quiet : steady → m.pause = none) (done : (s.chan c).ds.ops.any DsOp.isLiveSweep = false) :
    Keeps steady s (s.endBlock c m g e) := by
  unfold State.endBlock
  split
  · rw [setMarch_handSweepBlock]
    exact keeps_sweeps hm (by rfl) quiet quiet
  · unfold State.endPass
    split
    · exact keeps_beginPass hm g _ _ rfl quiet
    · exact keeps_endElement hm g e quiet done

theorem keeps_advanceSweep (quiet : steady → ∀ m, (s.chan c).march = some m → m.pause = none) :
    Keeps steady s (s.advanceSweep c) := by
  unfold State.advanceSweep
  split
  next m g hm hg =>
    split
    next e he =>
      split
      · exact .refl s
      next hlive => exact keeps_endBlock hm g e (fun h => quiet h m hm) (by simpa using hlive)
    next => exact .refl s
  next => exact .refl s

theorem keeps_pauseExpiry (s : State) (c : Chan) : Keeps steady s (pauseExpiry c s) := by
  unfold pauseExpiry
  split
  next m g hm hg =>
    split
    · have hstart : Keeps steady s ((s.setMarch c (some { m with pause := none })).updDs c
          fun d => { d with refreshWithheld := false }) := by
        unfold State.setMarch State.updDs
        rw [updChan_updChan]
        exact keeps_sweep _ _ _ hm rfl rfl fun _ _ => Channel.refreshOk_of_unpaused rfl rfl rfl
      exact hstart.trans (keeps_nextElement (by simp) g fun _ => rfl)
    · exact .refl s
  next => exact .refl s

/-! ### The reads of a block -/

theorem failingColumns_nodup (w : Width) (col : Nat) (data expected : Block) : (failingColumns w col data expected).Nodup :=
  (List.nodup_range.filter _).map fun i j h => by simpa using h

theorem take_overflowed {l : FailLog} {visible : Nat} {ev : FailEvent} (h : (l.take visible ev).2 = true) :
    (l.take visible ev).1 = l := by
  obtain ⟨-, ht⟩ | ⟨-, -, ht⟩ | ⟨-, -, -, ht⟩ | ⟨-, -, -, ht⟩ := take_cases l visible ev
  · simp [ht] at h
  · simp [ht] at h
  · simp [ht] at h
  · rw [ht]

theorem keeps_compareRead (op : DsOp) (how : MarchOp) (data : Block) : Keeps steady s (s.compareRead c op how data) := by
  unfold State.compareRead
  split
  next m g hm hg =>
    split
    next e he =>
      dsimp only
      split
      · exact .refl s
      next hcols =>
        simp only [State.setMarch, State.setLog, State.updSeq, updChan_updChan]
        split
        next hover =>
          refine keeps_truncate _ m.bank _ (some { m with passFailed := true }) _ rfl
            (fun ho => (ho.chans c).march (by simp [hm])) ⟨rfl, rfl, rfl⟩ (take_overflowed hover) (.inr ⟨m, hm, rfl⟩)
        next =>
          refine keeps_updChan_same s c _ rfl rfl fun _ => ?_
          refine .sweep m { m with passFailed := true } _ (s.chan c).ds hm rfl
            (.inr ⟨g, _, hg, rfl, by simpa using hcols, failingColumns_nodup .., rfl⟩) fun _ hr => ?_
          have hp : ∀ l : FailLog, ({ s.chan c with march := some { m with passFailed := true }, log := l } : Channel).pausing =
              (s.chan c).pausing := by simp [Channel.pausing, hm]
          exact ⟨hr.withheld.trans (hp _).symm, fun h => hr.quiet ((hp _).symm.trans h)⟩
    next => exact .refl s
  next => exact .refl s

/-- No pause runs. -/
def Channel.Unpaused (ch : Channel) : Prop := ∀ m, ch.march = some m → m.pause = none

theorem Channel.Unpaused.granted {ch : Channel} (h : ch.Unpaused) : ch.granted.Unpaused := by
  intro m hm
  unfold Channel.granted at hm
  dsimp only at hm
  split at hm
  · obtain rfl := Option.some.inj hm; rfl
  · exact h m hm

theorem compareRead_unpaused (op : DsOp) (how : MarchOp) (data : Block) (h : (s.chan c).Unpaused) :
    ((s.compareRead c op how data).chan c).Unpaused := by
  unfold State.compareRead
  split
  next m g hm hg =>
    split
    next e he =>
      dsimp only
      split
      · exact h
      · simp only [State.setMarch, State.setLog, State.updSeq, updChan_updChan]
        split
        · rw [truncateSweep_eq, updChan_updChan, chan_updChan_same, Channel.analysing]
          intro x hx
          rw [(beginAnalysis_keeps ..).1.frame, releaseSlot_chan_eq, chan_updChan_same] at hx
          have hnone : ∀ y : Channel, y.march = none → y.Unpaused := fun y hy z hz => by simp [hy] at hz
          dsimp only at hx
          split at hx
          · exact (hnone _ rfl).granted x hx
          · cases hx
        · rw [chan_updChan_same]
          intro x hx
          obtain rfl := Option.some.inj hx
          exact h m hm
    next => exact h
  next => exact h

theorem keeps_completeSweepOps (n : Nat) (s : State) (reads : List Block) :
    Keeps steady s (State.completeSweepOps n s c reads) ∧
      ((s.chan c).Unpaused → ((State.completeSweepOps n s c reads).chan c).Unpaused) := by
  have head (s : State) (h : (s.chan c).Unpaused) : ((s.completeHead c).chan c).Unpaused := by
    unfold State.completeHead
    rw [chan_updDs_same]
    exact h
  induction n generalizing s reads with
  | zero => exact ⟨.refl s, id⟩
  | succ n ih =>
    rw [State.completeSweepOps]
    split
    · exact ⟨.refl s, id⟩
    · split
      · exact ⟨(keeps_completeHead s c).trans (ih _ _).1, (ih _ _).2 ∘ head s⟩
      · exact ⟨((keeps_completeHead s c).trans (keeps_compareRead ..)).trans (ih _ _).1,
          fun h => (ih _ _).2 (compareRead_unpaused _ _ _ (head s h))⟩
      · exact ⟨(keeps_completeHead s c).trans (ih _ _).1, (ih _ _).2 ∘ head s⟩
      · exact ⟨.refl s, id⟩

/-- A live sweep operation stands only while no pause runs (R26). -/
theorem Channel.RefreshOk.unpaused {ch : Channel} (h : ch.RefreshOk) (hlive : headIsLiveSweep ch.ds.ops = true) :
    ch.Unpaused := by
  intro m hm
  by_contra hp
  have hquiet := h.quiet (by simpa [Channel.pausing, hm] using Option.isSome_iff_ne_none.mpr hp)
  cases hops : ch.ds.ops with
  | nil => simp [hops, headIsLiveSweep] at hlive
  | cons op rest =>
    simp only [hops, headIsLiveSweep, List.head?_cons, Option.map_some, Option.getD_some] at hlive
    simp [hops, hlive] at hquiet

theorem keeps_sweepOpsComplete (hs : steady → RefreshLaw s) (reads : List Block) :
    Keeps steady s (sweepOpsComplete c reads s) := by
  unfold sweepOpsComplete
  dsimp only
  obtain ⟨hkeeps, hpause⟩ := keeps_completeSweepOps (steady := steady) (c := c) (sweepRun (s.chan c).ds.ops) s reads
  split
  next hlive =>
    exact hkeeps.trans (keeps_advanceSweep fun h => hpause (((refreshLaw_iff s).mp (hs h) c).unpaused hlive))
  next => exact hkeeps

end

end Sys2Proof.Machine
end

section
/-! Loss, the end of testing, claims and the budget keep what `Keeps` says. -/

namespace Sys2Proof.Machine

section
variable {steady : Prop} {s : State} {c : Chan}

/-! ### CLOSING (R104) -/

@[simp] theorem seqState_updDs (s : State) (c d : Chan) (f : Downstream → Downstream) :
    (s.updDs c f).seqState d = s.seqState d := by
  simp [State.seqState]

@[simp] theorem seqState_updPort (s : State) (c d : Chan) (f : Port → Port) :
    (s.updPort c f).seqState d = s.seqState d := by
  simp [State.seqState]

/-- A move among OPEN, DRAINING, CLOSING and FAILED. -/
theorem keeps_shift (f : Channel → Channel) (x : SeqState) (q : Sequencer) (p : Port) (hf : f (s.chan c) = { s.chan c with seq := q, port := p })
    (source : s.seqState c = x) (hx : x ∈ [SeqState.done, .opened, .draining, .closing])
    (target : q.state ∈ [SeqState.opened, .draining, .closing, .failed])
    (ident : q.ident = (s.chan c).seq.ident) (wait : q.supplyWait = (s.chan c).seq.supplyWait)
    (credit : CreditOk x (s.chan c).port → CreditOk q.state p)
    (detector : DetectorOk s.strap x (s.chan c).port → DetectorOk s.strap q.state p) : Keeps steady s (s.updChan c f) := by
  refine keeps_updChan s c f (by rw [hf]) (fun _ => ?_) fun _ => .single ?_
  · rw [hf]
    refine sameSlot_of_idle (fun h => ?_) fun h => ?_
    · rw [source] at h
      simp only [List.mem_cons, List.not_mem_nil, or_false] at h
      rcases h with h | h <;> simp [h] at hx
    · simp only [List.mem_cons, List.not_mem_nil, or_false] at h
      rcases h with h | h <;> simp [h] at target
  · rw [hf]
    subst source
    exact .shift q p (s.chan c).ds hx target ident wait credit detector (.refl _)

/-- In CLOSING no law of credits binds but that a request in service stands in the queue. -/
theorem creditOk_closing {p : Port} (h : p.service.isSome = true → p.queue ≠ []) : CreditOk .closing p :=
  ⟨nofun, nofun, fun _ _ h => absurd rfl h, h⟩

/-- The channel once CLOSING has emptied its queue (R104). -/
def Channel.emptied (ch : Channel) : Channel := { ch with seq := { ch.seq with state := .failed } }

theorem keeps_answerClosing (fuel : Nat) (s : State) (h : s.seqState c = .closing) :
    Keeps steady s (State.answerClosing fuel s c) := by
  induction fuel generalizing s with
  | zero => exact .refl s
  | succ fuel ih =>
    rw [State.answerClosing]
    split
    next hq =>
      show Keeps steady s (s.updChan c Channel.emptied)
      refine keeps_shift _ .closing { (s.chan c).seq with state := .failed } (s.chan c).port rfl h (by decide) (by simp) rfl
        rfl (fun hc => ?_) fun hd => hd.of_not_opened (by decide)
      exact ⟨nofun, nofun, fun _ _ _ => hq, hc.service⟩
    next r rest hq =>
      split
      · refine Keeps.trans (keeps_updPort s c _ (fun _ => ?_) (fun hd => hd)) (ih _ ?_)
        · rw [h]; exact creditOk_closing nofun
        · simpa [State.seqState] using h
      · split
        · exact .refl s
        · refine keeps_updPort s c _ (fun _ => ?_) (fun hd => hd)
          rw [h]; exact creditOk_closing fun _ => by simp [Port.sendResponse, hq]

theorem keeps_closeQueue (h : s.seqState c = .closing) : Keeps steady s (s.closeQueue c) := keeps_answerClosing _ s h

/-- The channel as it enters CLOSING (R104). -/
def Channel.closing (why : Reason) (ch : Channel) : Channel :=
  { ch with
    seq := { ch.seq with state := .closing, result := .failed, reason := why },
    port := { ch.port with detector := .idle, service := if ch.port.responseFormed then ch.port.service else none } }

theorem enterClosing_eq (s : State) (c : Chan) (why : Reason) :
    s.enterClosing c why =
      ((((s.updChan c (Channel.closing why)).updBoard (·.took .failed)).dropOps c fun _ => true).closeQueue c) := by
  unfold State.enterClosing
  dsimp only
  rw [takeResult_eq, State.setSeqState, State.updSeq, updChan_updBoard, updChan_updChan, State.updPort, updChan_updBoard,
    updChan_updChan]
  rfl

theorem keeps_enterClosing (why : Reason) (h : s.seqState c = .opened ∨ s.seqState c = .draining) :
    Keeps steady s (s.enterClosing c why) := by
  rw [enterClosing_eq]
  have hclose : Keeps steady s (s.updChan c (Channel.closing why)) := by
    refine keeps_shift _ _ _ _ rfl rfl (by rcases h with h | h <;> simp [h]) (by simp) rfl rfl (fun hc => ?_) fun _ => nofun
    refine creditOk_closing fun hs => hc.service ?_
    dsimp only at hs
    split at hs
    · exact hs
    · cases hs
  have hx : (((s.updChan c (Channel.closing why)).updBoard (·.took .failed)).dropOps c fun _ => true).seqState c =
      .closing := by
    rw [State.dropOps, seqState_updDs]
    exact (seqState_updChan s c c _).trans (if_pos rfl)
  exact hclose.trans ((keeps_board _ _).trans ((keeps_dropOps _ c _).trans (keeps_closeQueue hx)))

/-! ### Loss (R102 to R104) -/

theorem keeps_abandon_fail (why : Reason) (h : s.seqState c = .testing) :
    Keeps steady s (((s.abandonSweep c).releaseSlot c).failChannel c why) := by
  rw [abandonSweep_eq, failChannel_eq]
  refine Keeps.trans ?_ (keeps_board _ _)
  refine keeps_release _ _ (fun _ => h) (failed_idle why _) rfl (fun _ => rfl) fun ho => ?_
  exact ((ho.chans c).leaves_testing h _ rfl).failed why

theorem keeps_depart_fail (why : Reason) (h : s.seqState c = .queued) :
    Keeps steady s ((s.departQueue c).failChannel c why) := by
  rw [failChannel_eq]
  refine Keeps.trans ?_ (keeps_board _ _)
  refine keeps_depart _ h (failed_idle why _) rfl fun ho => ?_
  exact ((ho.chans c).leaves (by unfold State.seqState at h; simp [h])).failed why

theorem keeps_lose (c : Chan) (why : Reason) : Keeps steady s (s.lose c why) := by
  unfold State.lose
  split
  case h_1 h => exact (keeps_stopIdentify_fail s c why h).trans (keeps_settle _)
  case h_2 h => exact (keeps_failSelecting s c why h).trans (keeps_settle _)
  case h_3 h => exact (keeps_depart_fail why h).trans (keeps_settle _)
  case h_4 h => exact (keeps_abandon_fail why h).trans (keeps_settle _)
  case h_5 h =>
    refine Keeps.trans ?_ (keeps_settle _)
    exact keeps_fail s c _ why (fun _ => by simp [h]) rfl fun ho => (ho.chans c).leaves_analysing h
  case h_6 h =>
    refine Keeps.trans ?_ (keeps_settle _)
    refine (keeps_dropOps s c _).trans (keeps_failDone _ c why ?_)
    simpa [State.dropOps, State.seqState] using h
  case h_7 h => exact (keeps_enterClosing why (.inl h)).trans (keeps_settle _)
  case h_8 h => exact (keeps_enterClosing why (.inr h)).trans (keeps_settle _)
  all_goals exact .refl s

theorem keeps_supplyGoodFall (s : State) (c : Chan) : Keeps steady s (supplyGoodFall c s) := by
  unfold supplyGoodFall
  split
  · exact (keeps_setSupply s c false).trans (keeps_lose c _)
  · exact .refl s

theorem keeps_noResponse (s : State) (c : Chan) : Keeps steady s (noResponse c s) := by
  unfold noResponse
  split
  · exact (keeps_dropOps s c _).trans (keeps_lose c _)
  · exact .refl s

theorem supplyWaiting_powering (h : s.supplyWaiting c = true) : s.seqState c = .powering := by
  simp only [State.supplyWaiting, Bool.and_eq_true, beq_iff_eq] at h
  exact h.1

theorem keeps_supplyGoodRise (s : State) (c : Chan) : Keeps steady s (supplyGoodRise c s) := by
  unfold supplyGoodRise
  split
  next h =>
    refine (keeps_setSupply s c true).trans (keeps_enterIdentifying _ c (.inl ?_))
    simpa [State.setSupply, State.seqState] using supplyWaiting_powering h
  next => exact keeps_setSupply s c true

theorem keeps_supplyWaitExpiry (s : State) (c : Chan) : Keeps steady s (supplyWaitExpiry c s) := by
  unfold supplyWaitExpiry
  split
  next h =>
    rw [enterIdentifying_eq, State.updSeq, updChan_updChan]
    exact keeps_bringUp s c _ _ _ rfl (fun _ => .inl (supplyWaiting_powering h)) (.inr (.inl rfl)) (fun _ => rfl)
      (fun _ => nofun) (.refl _)
  next => exact .refl s

/-! ### The end of testing -/

theorem keeps_analysisComplete (s : State) (c : Chan) : Keeps steady s (analysisComplete c s) := by
  unfold analysisComplete
  split
  next a ha =>
    split
    next h =>
      obtain ⟨hx, hphase⟩ := h
      unfold State.afterAnalysis
      dsimp only
      split
      · refine Keeps.trans ?_ (keeps_settle _)
        rw [endTesting_eq, State.setAnalyser, updChan_updChan]
        refine Keeps.trans ?_ (keeps_board _ _)
        refine keeps_updChan s c _ ?_ (fun _ => sameSlot_of_idle (by simp [hx]) (ended_idle _ _ _)) fun ho => ?_
        · rw [ended_remap]
        · exact ((ho.chans c).leaves_analysing hx).ended _
      · simp only [State.setAnalyser, State.updSeq, updChan_updChan]
        refine keeps_requestSlot _ (fun _ => by simp [hx]) rfl fun ho => .single ?_
        exact .enqueue (a.bank + 1) (.inr ⟨a, ha, hphase, rfl⟩)
    next => exact .refl s
  next => exact .refl s

theorem keeps_depart_end (of : Bool) (h : s.seqState c = .queued) :
    Keeps steady s ((s.departQueue c).updChan c (Channel.ended s.strap of)) := by
  refine keeps_depart _ h (ended_idle _ _ _) (ended_remap ..) fun ho => ?_
  exact ((ho.chans c).leaves (by unfold State.seqState at h; simp [h])).ended of

/-! ### The budget (R115 to R120) -/

theorem keeps_clock (s : State) (c : Chan) (f : Sequencer → Sequencer)
    (hf : ∀ q, f q = { q with timer := (f q).timer, budgetExpired := (f q).budgetExpired }) :
    Keeps steady s (s.updSeq c f) := by
  refine keeps_updChan_same s c _ rfl (by rw [hf]; rfl) fun _ => ?_
  rw [hf]
  exact .clock _ _

theorem keeps_expireBudget (c : Chan) (s : State) : Keeps steady s (s.expireBudget c) := by
  unfold State.expireBudget
  split
  case h_1 h =>
    refine Keeps.trans ?_ (keeps_settle _)
    refine keeps_fail s c _ _ (fun _ => by simp [h]) rfl fun ho => ?_
    exact (ho.chans c).leaves_early (.inl h) _ ((ho.chans c).ident_idle (by unfold State.seqState at h; simp [h])) rfl
  case h_2 h => exact (keeps_stopIdentify_fail s c _ h).trans (keeps_settle _)
  case h_3 h => exact (keeps_selectUnread h).trans (keeps_settle _)
  case h_4 h =>
    refine Keeps.trans ?_ (keeps_settle _)
    rw [endTesting_eq]
    exact (keeps_depart_end _ h).trans (keeps_board _ _)
  case h_5 h =>
    exact keeps_truncate _ _ _ _ _ rfl (fun _ => h) ⟨rfl, rfl, rfl⟩ rfl (.inl rfl)
  case h_6 => exact keeps_clock s c _ fun _ => rfl
  all_goals exact .refl s

theorem keeps_deliverExpiry (c : Chan) (s : State) : Keeps steady s (s.deliverExpiry c) := by
  unfold State.deliverExpiry
  split
  · exact (keeps_clock s c _ fun _ => rfl).trans (keeps_expireBudget c _)
  all_goals exact .refl s

theorem keeps_settleBudgets (s : State) : Keeps steady s s.settleBudgets :=
  .foldl (fun x c => keeps_clock x c _ fun _ => rfl) _ s

end

end Sys2Proof.Machine
end

section
/-! The shadow pool: a claim and a freeing keep R77's law, and what `Keeps` says. -/

namespace Sys2Proof.Machine

theorem lowestFree_eq_some_iff (sh : Shadow) (e : Fin 32) :
    sh.lowestFree = some e ↔ sh.holders[e] = none ∧ ∀ f < e, sh.holders[f] ≠ none := by
  unfold Shadow.lowestFree
  rw [List.find?_eq_some_iff_getElem]
  simp only [List.getElem_finRange, List.length_finRange, beq_iff_eq, Fin.getElem_fin, Bool.not_eq_true', beq_eq_false_iff_ne]
  constructor
  · rintro ⟨hfree, i, hi, rfl, hbelow⟩
    exact ⟨hfree, fun f hf => hbelow f.val hf⟩
  · rintro ⟨hfree, hbelow⟩
    exact ⟨hfree, e.val, e.isLt, by simp, fun j hj => hbelow ⟨j, by omega⟩ hj⟩

theorem lowestFree_eq_none_iff (sh : Shadow) : sh.lowestFree = none ↔ ∀ e : Fin 32, sh.holders[e] ≠ none := by
  unfold Shadow.lowestFree
  simp [List.find?_eq_none]

theorem namesOf_append_shadow (t : List RemapEntry) (bank row n e : Nat) :
    namesOf (t ++ [{ bank := bank, row := row, target := .shadow n }]) e = namesOf t e + if e = n then 1 else 0 := by
  rw [namesOf, List.filter_append, List.length_append]
  by_cases h : e = n
  · simp [h, namesOf]
  · simp [h, Ne.symm h, namesOf]

theorem namesOf_of_shadowEntries {t u : List RemapEntry} (h : shadowEntriesOf t = shadowEntriesOf u) (e : Nat) :
    namesOf t e = namesOf u e := by
  rw [namesOf_eq, h, ← namesOf_eq]

theorem toList_set_getElem? (v : Vector (Option Chan) 32) (e : Fin 32) (x : Option Chan) (i : Nat) :
    (v.set e.val x).toList[i]? = if i = e.val then some x else v.toList[i]? := by
  rw [Vector.toList_set, List.getElem?_set]
  simp only [Vector.length_toList, e.isLt, if_true, eq_comm (a := e.val)]

/-- A granted entry is named by the one place that now records its channel (R77, R79). -/
theorem shadowLaw_grant {s t : State} {c : Chan} {e : Fin 32} {bank row : Nat} (hfree : s.shadow.holders[e] = none)
    (hholders : t.shadow.holders = s.shadow.holders.set e.val (some c))
    (hentries : shadowEntriesOf (t.chan c).remap =
      shadowEntriesOf ((s.chan c).remap ++ [{ bank := bank, row := row, target := .shadow e.val }]))
    (hothers : ∀ d, d ≠ c → (t.chan d).remap = (s.chan d).remap) (h : ShadowLaw s) : ShadowLaw t := by
  have hzero (d : Chan) : namesOf (s.chan d).remap e.val = 0 := by
    have hplace : s.shadow.holders.toList[e.val]? = some none := by
      rw [Vector.getElem?_toList, Vector.getElem?_eq_getElem e.isLt]; exact congrArg some hfree
    rw [h d e.val, hplace]
    simp
  intro d i
  rw [hholders, toList_set_getElem?]
  by_cases hd : d = c
  · subst hd
    rw [namesOf_of_shadowEntries hentries, namesOf_append_shadow]
    by_cases hi : i = e.val
    · subst hi; simp [hzero]
    · simp [hi, h d i]
  · rw [hothers d hd]
    by_cases hi : i = e.val
    · subst hi; simp [hzero, Ne.symm hd]
    · simp [hi, h d i]

/-- A freed channel names no entry, and no place records it (R81). -/
theorem shadowLaw_free {s t : State} {c : Chan} (hholders : t.shadow.holders = (s.shadow.free c).holders)
    (hnone : (t.chan c).remap = []) (hothers : ∀ d, d ≠ c → (t.chan d).remap = (s.chan d).remap) (h : ShadowLaw s) :
    ShadowLaw t := by
  intro d i
  rw [hholders, Shadow.free, Vector.toList_map, List.getElem?_map]
  by_cases hd : d = c
  · subst hd
    rw [hnone]
    cases s.shadow.holders.toList[i]? with
    | none => rfl
    | some x => by_cases hx : x = some d <;> simp [hx, namesOf]
  · rw [hothers d hd, h d i]
    cases s.shadow.holders.toList[i]? with
    | none => rfl
    | some x =>
      by_cases hx : x = some c
      · simp [hx, Ne.symm hd]
      · simp [hx]

section
variable {steady : Prop} {s : State} {c : Chan}

theorem holders_set_lost {v : Vector (Option Chan) 32} {e i : Fin 32} {c d : Chan} (hfree : v[e] = none) (hi : v[i] = some d) :
    (v.set e.val (some c))[i] = some d := by
  have hne : e.val ≠ i.val := fun h => by simp [Fin.ext h, hi] at hfree
  simpa [Vector.getElem_set, hne] using hi

theorem keeps_answerClaim (a : Analysis) (row : Nat) (rest : List Nat) (ha : (s.chan c).analyser = some a)
    (hphase : a.phase = .claiming) (hfront : a.candidates = row :: rest) : Keeps steady s (s.answerClaim c a row rest) := by
  unfold State.answerClaim
  split
  next e he =>
    obtain ⟨hfree, -⟩ := (lowestFree_eq_some_iff _ _).mp he
    have hchan (d : Chan) : (({ s with shadow := s.shadow.grant e c } : State).updChan c fun ch =>
        primaryPass rest { a with phase := .primary } (ch.repairShadow a.bank row e.val)).chan d =
        if d = c then primaryPass rest { a with phase := .primary } ((s.chan c).repairShadow a.bank row e.val)
        else s.chan d := chan_updChan ..
    have hmoves (d : Chan) : ChanMoves (s.setting steady) (s.chan d)
        ((({ s with shadow := s.shadow.grant e c } : State).updChan c fun ch =>
          primaryPass rest { a with phase := .primary } (ch.repairShadow a.bank row e.val)).chan d) := by
      rw [hchan]
      refine moves_ite (fun hd => ?_) fun _ => .refl
      subst hd; exact .single (.claim a row rest e.val ha hphase hfront)
    have hsame (d : Chan) : (({ s with shadow := s.shadow.grant e c } : State).updChan c fun ch =>
        primaryPass rest { a with phase := .primary } (ch.repairShadow a.bank row e.val)).seqState d = s.seqState d := by
      unfold State.seqState
      rw [hchan]
      split
      next hd => subst hd; rw [(primaryPass_keeps ..).1.frame]; rfl
      next => rfl
    refine ⟨rfl, rfl, rfl, fun h => ⟨?_, shadowZeroFill_wf _ h.2⟩, fun ho => ho.of_moves hmoves ?_, fun _ => id,
      fun _ => hmoves, fun _ d _ i hi => holders_set_lost hfree hi⟩
    · refine shadowLaw_grant (bank := a.bank) (row := row) hfree rfl ?_ (fun d hd => by rw [hchan, if_neg hd]) h.1
      rw [hchan, if_pos rfl, (primaryPass_shadowEntries ..).1, repairShadow_remap]
    · exact ho.queue.of_sameSlot rfl fun d => by rw [hsame]; exact .rfl' _
  next =>
    refine keeps_updChan s c _ ?_ (fun _ => ?_) fun _ => .single (.refuse a row rest ha hphase hfront)
    · rw [(primaryPass_shadowEntries ..).1, markUnrepairable_remap]
    · rw [(primaryPass_keeps ..).1.frame]; exact .rfl' _

theorem keeps_shadowClaim (s : State) (c : Chan) : Keeps steady s (shadowClaim c s) := by
  unfold shadowClaim
  split
  next a ha =>
    split
    next hphase hfront => exact keeps_answerClaim a _ _ ha hphase hfront
    next => exact .refl s
  next => exact .refl s

/-! ### A retest (R108) -/

/-- The channel as its retest begins (R88, R108). -/
def Channel.retested (limit : Option Nat) (ch : Channel) : Channel :=
  ({ ch with seq := ch.seq.retest limit, geometry := none, remap := [], log := FailLog.empty,
             port := { ch.port with credit := 0 } } : Channel).identifies

theorem beginRetest_eq (s : State) (c : Chan) :
    s.beginRetest c =
      (({ s with shadow := s.shadow.free c } : State).updChan c (Channel.retested s.settledBudget)).settle := by
  unfold State.beginRetest
  dsimp only
  rw [enterIdentifying_eq, updChan_updChan]; rfl

theorem keeps_beginRetest (h : s.seqState c = .draining) (hq : (s.chan c).port.queue = []) :
    Keeps steady s (s.beginRetest c) := by
  rw [beginRetest_eq]
  refine Keeps.trans ?_ (keeps_settle _)
  have hchan (d : Chan) : (({ s with shadow := s.shadow.free c } : State).updChan c
      (Channel.retested s.settledBudget)).chan d = if d = c then (s.chan c).retested s.settledBudget else s.chan d :=
    chan_updChan ..
  have hmoves (d : Chan) : ChanMoves (s.setting steady) (s.chan d)
      ((({ s with shadow := s.shadow.free c } : State).updChan c (Channel.retested s.settledBudget)).chan d) := by
    rw [hchan]
    refine moves_ite (fun hd => ?_) fun _ => .refl
    subst hd; exact .single (.retest _ _ _ h rfl rfl hq rfl rfl hq ⟨rfl, id⟩)
  have hsame (d : Chan) : SameSlot (s.seqState d) ((({ s with shadow := s.shadow.free c } : State).updChan c
      (Channel.retested s.settledBudget)).seqState d) := by
    rw [seqState_updChan]
    split
    next hd => subst hd; rw [h]; exact sameSlot_of_idle (by decide) (by show SeqState.identifying ∉ _; decide)
    next => exact .rfl' _
  refine ⟨rfl, rfl, rfl, fun hp => ⟨?_, hp.2⟩, fun ho => ho.of_moves hmoves (ho.queue.of_sameSlot rfl hsame), fun _ => id,
    fun _ => hmoves, fun _ d hd i hi => ?_⟩
  · refine shadowLaw_free rfl (by rw [hchan, if_pos rfl]; rfl) (fun d hd => by rw [hchan, if_neg hd]) hp.1
  · have hne : d ≠ c := fun e => by rw [e, h] at hd; exact absurd hd (by simp [SeqState.lost])
    show (s.shadow.holders.map _)[i.val] = some d
    have hi' : s.shadow.holders[i.val] = some d := hi
    simp [hi', hne]

end

end Sys2Proof.Machine
end

section
/-! The request ports and the Report Writer's commands keep what `Keeps` says. -/

namespace Sys2Proof.Machine

section
variable {steady : Prop} {s : State} {c : Chan}

/-! ### Serving the queue (R11 to R17, R138, R142) -/

theorem keeps_carryWaitingReport (s : State) (c : Chan) : Keeps steady s (s.carryWaitingReport c) := by
  unfold State.carryWaitingReport
  split
  · split
    · exact (bystander_carryReportBlock _ _).keeps
    · exact .refl _
  · exact .refl _

theorem keeps_requestLeaves (hq : CreditOk (s.seqState c) (s.chan c).port → (s.chan c).port.queue ≠ []) :
    Keeps steady s (s.requestLeaves c) := by
  rw [requestLeaves_eq]
  refine Keeps.trans ?_ (keeps_carryWaitingReport _ c)
  refine keeps_updPort s c _ (fun hc => ?_) fun hd => hd
  have hlen : (s.chan c).port.queue.tail.length + 1 = (s.chan c).port.queue.length := by
    cases h : (s.chan c).port.queue with
    | nil => exact absurd h (hq hc)
    | cons r rest => simp
  refine ⟨fun hx => ?_, fun hx => ?_, fun h1 h2 h3 => ?_, nofun⟩
  · have := hc.opened hx
    simp only [hx, if_true]
    omega
  · have := hc.draining hx
    have hne : s.seqState c ≠ .opened := by simp [hx]
    simp only [if_neg hne]
    omega
  · exact absurd (hc.closed h1 h2 h3) (hq hc)

theorem keeps_addSlot (slot : Option Block) (remapped shadow outside : Bool) :
    Keeps steady s (s.addSlot c slot remapped shadow outside) :=
  keeps_updPort_frame s c _ rfl rfl (fun h => by simpa using h) rfl

theorem keeps_accessShadow (r : Request) (data : Block) (entry col : Nat) :
    Keeps steady s (s.accessShadow c r data entry col) := by
  unfold State.accessShadow
  split
  · refine Keeps.trans ?_ (keeps_addSlot ..)
    exact .of_moves rfl rfl rfl rfl rfl (shadowWriteBlock_wf _ _ _) (fun _ => rfl) (fun _ _ => .rfl' _) fun _ _ => .refl
  · exact keeps_addSlot ..

theorem keeps_serveBlock (c : Chan) (r : Request) (i : Nat) (s : State) : Keeps steady s (s.serveBlock c r i) := by
  unfold State.serveBlock
  dsimp only
  split
  · exact (keeps_handOver s c rfl).trans (keeps_addSlot ..)
  · exact (keeps_handOver s c rfl).trans (keeps_addSlot ..)
  · exact (keeps_storeReport s c).trans (keeps_accessShadow ..)
  · exact (keeps_updPort_frame s c _ rfl rfl id rfl).trans (keeps_addSlot ..)

theorem keeps_beginService (r : Request) (hq : (s.chan c).port.queue ≠ []) : Keeps steady s (s.beginService c r) := by
  refine Keeps.trans ?_ (.foldl (fun x i => keeps_serveBlock c r i x) _ _)
  exact keeps_updPort s c _ (fun hc => ⟨hc.opened, hc.draining, hc.closed, fun _ => hq⟩) fun hd => hd

theorem keeps_formResponse (r : Request) : Keeps steady s (s.formResponse c r) := by
  unfold State.formResponse
  dsimp only
  cases hv : (s.chan c).port.service with
  | none => exact keeps_updPort_frame s c _ (by simp [hv]) (by simp [hv]) (by simp [hv]) (by simp [hv])
  | some v =>
    by_cases hf : v.formed = true
    · exact keeps_updPort_frame s c _ (by simp [hv, hf]) (by simp [hv, hf]) (by simp [hv]) (by simp [hv, hf])
    · refine keeps_updPort_frame s c _ ?_ ?_ (by simp [hv]) ?_
      all_goals simp [hv, hf, Port.sendResponse]

/-- The queue stands while the head request is served. -/
theorem addSlot_queue (s : State) (c d : Chan) (slot : Option Block) (r h o : Bool) :
    ((s.addSlot c slot r h o).chan d).port.queue = (s.chan d).port.queue := by
  unfold State.addSlot
  rw [chan_updPort]
  split
  · subst_vars; rfl
  · rfl

theorem serveBlock_queue (c : Chan) (r : Request) (i : Nat) (s : State) (d : Chan) :
    ((s.serveBlock c r i).chan d).port.queue = (s.chan d).port.queue := by
  unfold State.serveBlock State.serveShadow State.accessShadow
  dsimp only
  split
  · rw [addSlot_queue, State.handOver]; simp
  · rw [addSlot_queue, State.handOver]; simp
  · split
    · rw [addSlot_queue]; exact congrArg (·.port.queue) (storeReport_chan s c d)
    · rw [addSlot_queue, storeReport_chan]
  · rw [addSlot_queue, chan_updPort]
    split
    · subst_vars; rfl
    · rfl

theorem beginService_queue (s : State) (c : Chan) (r : Request) (d : Chan) :
    ((s.beginService c r).chan d).port.queue = (s.chan d).port.queue := by
  have fold (l : List Nat) : ∀ x : State,
      ((l.foldl (fun x i => x.serveBlock c r i) x).chan d).port.queue = (x.chan d).port.queue := by
    induction l with
    | nil => exact fun _ => rfl
    | cons i l ih => exact fun x => (ih _).trans (serveBlock_queue c r i x d)
  unfold State.beginService
  rw [fold, chan_updPort]
  split
  · subst_vars; rfl
  · rfl

theorem keeps_serveQueue (fuel : Nat) (s : State) : Keeps steady s (State.serveQueue fuel s c) := by
  induction fuel generalizing s with
  | zero => exact .refl s
  | succ fuel ih =>
    rw [State.serveQueue]
    split
    · split
      next hq =>
        split
        next hx => exact keeps_beginRetest hx hq
        next => exact .refl s
      next r rest hq =>
        have hhead : Keeps steady s (s.serviceHead c r) ∧ ((s.serviceHead c r).chan c).port.queue ≠ [] := by
          unfold State.serviceHead
          split
          · exact ⟨keeps_beginService r (by simp [hq]), by simp [beginService_queue, hq]⟩
          · exact ⟨.refl s, by simp [hq]⟩
        refine hhead.1.trans ?_
        dsimp only
        split
        · split
          · exact (keeps_requestLeaves fun _ => hhead.2).trans (ih _)
          · exact keeps_formResponse r
        · exact .refl _
    · exact .refl s

theorem keeps_pump (s : State) (c : Chan) : Keeps steady s (s.pump c) := keeps_serveQueue _ s

/-! ### Escapes (R107, R147, R148) -/

theorem keeps_retestEscape (s : State) (c : Chan) : Keeps steady s (s.retestEscape c) := by
  unfold State.retestEscape
  split
  next h =>
    refine Keeps.trans ?_ (keeps_pump _ c)
    rw [State.setSeqState, State.updSeq, State.updPort, updChan_updChan]
    refine keeps_shift _ .opened { (s.chan c).seq with state := .draining } { (s.chan c).port with detector := .idle } rfl h
      (by decide) (by simp) rfl rfl (fun hc => ?_) fun _ => nofun
    exact ⟨nofun, fun _ => (hc.opened rfl).le, fun _ hn => absurd rfl hn, hc.service⟩
  next => exact .refl s

theorem keeps_takeEscape (w : BitVec 64) : Keeps steady s (s.takeEscape w) := by
  unfold State.takeEscape
  split
  · exact (bystander_publish s).keeps
  · split
    · exact keeps_retestEscape s _
    · exact .refl s
  · exact keeps_board s _
  · exact .refl s

theorem keeps_detect (r : Request) : Keeps steady s (s.detect c r) := by
  unfold State.detect
  split
  next h =>
    simp only [Bool.and_eq_true, beq_iff_eq] at h
    obtain ⟨⟨-, hstrap⟩, hx⟩ := h
    have hseen (d : Detector) : Keeps steady s (s.updPort c fun q => { q with detector := d }) :=
      keeps_updPort s c _ (fun hc => ⟨hc.opened, hc.draining, hc.closed, hc.service⟩) fun _ _ => ⟨hx, hstrap⟩
    dsimp only
    split
    · exact hseen _
    · exact (hseen _).trans (keeps_takeEscape _)
  next => exact .refl s

/-! ### The commands of the ports -/

/-- An arrival's credit, spent, comes back with the discard, or goes with the request that joins the queue (R137 to R139). -/
theorem keeps_requestArrival (p : Chan) (header : Vector Byte 5) (data : List Block) (begun : Bool) (s : State) :
    Keeps steady s (requestArrival p header data begun s) := by
  unfold requestArrival
  split
  · exact .refl s
  dsimp only
  unfold State.judgeArrival
  rw [seqState_updPort]
  have discard (back : Bool) (hc : back = true → 0 < (s.chan p).port.credit)
      (hx : back = false → s.seqState p = .opened → (s.chan p).port.credit = 0) :
      Keeps steady s ((s.updPort p fun q => { q.noteBegun begun with credit := q.credit - 1 }).discard p back) := by
    rw [State.discard, updPort_updPort]
    refine keeps_updPort s p _ (fun h => ?_) fun h => ?_
    · cases back with
      | true =>
        have hc := hc rfl
        rw [if_pos rfl, returnCredit_eq]
        refine ⟨fun e => ?_, fun e => ?_, h.closed, h.service⟩
        · have := h.opened e
          simp only [Port.countDiscard, Port.noteBegun]
          omega
        · have := h.draining e
          simp only [Port.countDiscard, Port.noteBegun]
          omega
      | false =>
        refine ⟨fun e => ?_, fun e => ?_, h.closed, h.service⟩
        · have := h.opened e
          have := hx rfl e
          simp only [Port.countDiscard, Port.noteBegun, Bool.false_eq_true, if_false]
          omega
        · have := h.draining e
          simp only [Port.countDiscard, Port.noteBegun, Bool.false_eq_true, if_false]
          omega
    · cases back with
      | true => rw [if_pos rfl, returnCredit_eq]; exact h
      | false => exact h
  split
  next hserves =>
    split
    next hcredit =>
      have hcredit : 0 < (s.chan p).port.credit := by simpa using hcredit
      split
      · exact discard _ (fun _ => hcredit) fun hb hx => by simp [hx] at hb
      next r _ =>
        refine Keeps.trans ?_ ((keeps_detect r).trans (keeps_pump _ p))
        rw [State.accept, updPort_updPort]
        refine keeps_updPort s p _ (fun h => ?_) fun h => h
        refine ⟨fun e => ?_, fun e => ?_, fun h1 h2 h3 => ?_, fun _ => ?_⟩
        · have := h.opened e
          simp only [Port.noteBegun, List.length_append, List.length_singleton]
          omega
        · have := h.draining e
          simp only [Port.noteBegun, List.length_append, List.length_singleton]
          omega
        · simp [SeqState.serves, h1, h2] at hserves
        · simp [Port.noteBegun]
    next hcredit => exact discard false nofun fun _ _ => by simpa using hcredit
  next hserves => exact discard false nofun fun _ hx => by simp [hx, SeqState.serves] at hserves

theorem keeps_portBlockComplete (p : Chan) (data : Block) (begun : Bool) (s : State) :
    Keeps steady s (portBlockComplete p data begun s) := by
  unfold portBlockComplete
  split
  · exact .refl s
  · split
    · refine (keeps_completeHead s p).trans (Keeps.trans ?_ (keeps_pump _ p))
      exact keeps_updPort_frame _ p _ rfl rfl (fun h => by simpa [Port.noteBegun] using h) rfl
    · exact .refl s

theorem keeps_readLeaves (hq : CreditOk (s.seqState c) (s.chan c).port → (s.chan c).port.queue ≠ []) :
    Keeps steady s (s.readLeaves c) := by
  unfold State.readLeaves
  split
  next h =>
    have hleft : Keeps steady s (s.updPort c fun q => { q with queue := q.queue.tail, service := none }) :=
      keeps_updPort s c _ (fun _ => h ▸ creditOk_closing nofun) fun hd => hd
    exact hleft.trans ((keeps_closeQueue (by simpa using h)).trans (keeps_settle _))
  next => exact (keeps_requestLeaves hq).trans (keeps_pump _ c)

theorem keeps_messageSent (p : Chan) (s : State) : Keeps steady s (messageSent p s) := by
  unfold messageSent
  split
  · exact .refl s
  next m rest hm =>
    have hsent : Keeps steady s (s.updPort p fun q => { q with outbound := rest, headBegun := false }) :=
      keeps_updPort_frame s p _ rfl rfl id rfl
    dsimp only
    split
    next h =>
      refine hsent.trans (keeps_readLeaves fun hc => ?_)
      simp only [Bool.and_eq_true, Port.responseFormed] at h
      refine hc.service ?_
      rw [chan_updPort_same]
      cases hs : (s.chan p).port.service with
      | none => simp [hs] at h
      | some v => rfl
    next => exact hsent

theorem keeps_nextReportBlock (w : Write) : Keeps steady s (s.nextReportBlock w) := by
  unfold State.nextReportBlock
  split
  · exact (bystander_handReportBlock _ _).keeps
  · exact (bystander_endWrite s w).keeps.trans (keeps_settle _)

theorem keeps_reportOpComplete (c : Chan) : Keeps steady s (s.reportOpComplete c) := by
  unfold State.reportOpComplete
  split
  · split
    · split
      · exact (keeps_completeHead s c).trans (keeps_nextReportBlock _)
      · exact keeps_completeHead s c
    · exact keeps_completeHead s c
  · exact keeps_completeHead s c
  · exact .refl s

theorem keeps_reportBlockComplete (c : Chan) (s : State) : Keeps steady s (reportBlockComplete c s) := by
  unfold reportBlockComplete
  split
  · split
    · exact (keeps_storeReport s c).trans (keeps_nextReportBlock _)
    · exact keeps_reportOpComplete c
  · exact keeps_reportOpComplete c

end

end Sys2Proof.Machine
end

section
/-! Every command: what each of the 23 does to the part, as one of four cases; and from these the laws that a step keeps
of the sequencers, the arbiter, the Fail Logs, the Remap Tables, the shadow pool and the credits. -/

namespace Sys2Proof.Machine

/-! ### Commands while reset is asserted (R109) -/

section
variable {s : State}

/-- While reset is asserted a command other than the two of reset finds nothing to do but to note a supply-good input. -/
def Untouched (s t : State) : Prop := t = s ∨ ∃ c good, t = s.setSupply c good

theorem Untouched.heldLaw {t : State} (h : Untouched s t) (hl : HeldLaw s) : HeldLaw t := by
  rcases h with rfl | ⟨c, good, rfl⟩
  · exact hl
  · intro hr
    obtain ⟨hc, rest⟩ := hl hr
    refine ⟨fun d => ?_, rest⟩
    rw [State.setSupply, chan_updChan]
    split
    next hd => subst hd; rw [hc d]; rfl
    next => exact hc d

/-- What `HeldLaw` says of one channel in reset. -/
theorem HeldLaw.chan (h : HeldLaw s) (hr : s.inReset = true) (c : Chan) : s.chan c = Channel.reset (s.chan c).supplyGood :=
  (h hr).1 c

theorem HeldLaw.loader (h : HeldLaw s) (hr : s.inReset = true) : s.loader = Loader.reset := (h hr).2.2.2.2.1

theorem HeldLaw.writer (h : HeldLaw s) (hr : s.inReset = true) : s.writer = { write := none, pendingPublish := false } :=
  (h hr).2.2.2.2.2.1

end

section
variable {s : State} (hl : HeldLaw s) (hr : s.inReset = true) (c : Chan)
include hl hr

theorem held_seq : (s.chan c).seq = Sequencer.reset := by rw [hl.chan hr c]; rfl
theorem held_ds : (s.chan c).ds = Downstream.reset := by rw [hl.chan hr c]; rfl
theorem held_port : (s.chan c).port = Port.reset := by rw [hl.chan hr c]; rfl
theorem held_march : (s.chan c).march = none := by rw [hl.chan hr c]; rfl
theorem held_analyser : (s.chan c).analyser = none := by rw [hl.chan hr c]; rfl

theorem held_supplyGoodRise : Untouched s (supplyGoodRise c s) := by
  have : s.supplyWaiting c = false := by simp [State.supplyWaiting, held_seq hl hr, Sequencer.reset]
  exact .inr ⟨c, true, by simp [supplyGoodRise, this]⟩

theorem held_supplyGoodFall : Untouched s (supplyGoodFall c s) := by
  unfold supplyGoodFall
  split
  · have : (s.setSupply c false).seqState c = .powering := by
      simp [State.setSupply, State.seqState, held_seq hl hr, Sequencer.reset]
    exact .inr ⟨c, false, by simp [State.lose, this]⟩
  · exact .inl rfl

theorem held_supplyWaitExpiry : Untouched s (supplyWaitExpiry c s) :=
  .inl (by simp [supplyWaitExpiry, State.supplyWaiting, held_seq hl hr, Sequencer.reset])

theorem held_identitySample (nibble : BitVec 4) : Untouched s (identitySample c nibble s) :=
  .inl (by simp [identitySample, held_seq hl hr, Sequencer.reset])

theorem held_widthCheckOpComplete (data : Block) : Untouched s (widthCheckOpComplete c data s) :=
  .inl (by simp [widthCheckOpComplete, held_ds hl hr, Downstream.reset])

theorem held_loadingAt (x : LoadStage) : s.loadingAt x = false := by
  simp [State.loadingAt, hl.loader hr, Loader.reset]

theorem held_budgetExpiry : Untouched s (budgetExpiry c s) :=
  .inl (by simp [budgetExpiry, State.deliverExpiry, held_seq hl hr, Sequencer.reset])

theorem held_sweepOpsComplete (reads : List Block) : Untouched s (sweepOpsComplete c reads s) :=
  .inl (by simp [sweepOpsComplete, held_ds hl hr, Downstream.reset, sweepRun, headIsLiveSweep, State.completeSweepOps])

theorem held_pauseExpiry : Untouched s (pauseExpiry c s) := .inl (by simp [pauseExpiry, held_march hl hr])

theorem held_shadowClaim : Untouched s (shadowClaim c s) := .inl (by simp [shadowClaim, held_analyser hl hr])

theorem held_analysisComplete : Untouched s (analysisComplete c s) := .inl (by simp [analysisComplete, held_analyser hl hr])

theorem held_noResponse : Untouched s (noResponse c s) := .inl (by simp [noResponse, held_ds hl hr, Downstream.reset])

theorem held_portBlockComplete (data : Block) (begun : Bool) : Untouched s (portBlockComplete c data begun s) :=
  .inl (by simp [portBlockComplete, held_ds hl hr, Downstream.reset])

theorem held_messageSent : Untouched s (messageSent c s) := .inl (by simp [messageSent, held_port hl hr, Port.reset])

theorem held_reportBlockComplete : Untouched s (reportBlockComplete c s) :=
  .inl (by simp [reportBlockComplete, State.reportOpComplete, hl.writer hr, held_ds hl hr, Downstream.reset])

end

/-! ### The four cases of a command -/

/-- The loader has left LOADING with its results, and the allocator has taken the cap (R78, R121, R134). -/
def State.loaded (s : State) (l : Loader) (cap : Nat) : State := { s with loader := l, shadow := { s.shadow with cap := cap } }

/-- What a command makes of the part. -/
inductive Stepped (i : Instr) (s : State) : State → Prop
  /-- Reset assertion (R109). -/
  | reset (h : i = .resetAssertion) : Stepped i s (resetAssertion s)
  /-- Reset release of a part held in reset (R109). -/
  | release (lanes : BitVec 8) (held : s.inReset = true) : Stepped i s (resetRelease lanes s)
  /-- Any other command but one that ends a load. -/
  | keeps (t : State) (keeps : Keeps (RefreshLaw s) s t) (held : HeldLaw s → s.inReset = true → Untouched s t) : Stepped i s t
  /-- The end of a load. -/
  | loads (l : Loader) (cap : Nat) (t : State) (loading : s.loader.state = .loading) (ended : l.state ≠ .loading)
      (keeps : Keeps (RefreshLaw s) (s.loaded l cap) t) : Stepped i s t

section
variable {steady : Prop}

theorem keeps_endLoad (s : State) (x : LoaderState) (k : Kept) (expired order : List Chan) (hx : x ≠ .loading) :
    Keeps steady (s.loaded (s.loader.finish x k) k.cap) (s.endLoad x k expired order) := by
  have select (l : List Chan) : ∀ y : State, y.loader.state ≠ .loading →
      Keeps steady y (l.foldl (fun y c => y.selectIfWaiting c) y) := by
    induction l with
    | nil => exact fun y _ => .refl y
    | cons c l ih =>
      intro y hy
      have hc : Keeps steady y (y.selectIfWaiting c) := keeps_selectIfWaiting c hy
      refine hc.trans (ih _ fun h => hy ?_)
      exact (congrArg Setting.loading hc.setting).mp h
  have hexpired : Keeps steady (s.loaded (s.loader.finish x k) k.cap) (expired.foldl (fun y c => y.deliverExpiry c)
      (s.loaded (s.loader.finish x k) k.cap).settleBudgets) :=
    (keeps_settleBudgets _).trans (.foldl (fun y c => keeps_deliverExpiry c y) _ _)
  refine hexpired.trans ((select (order ++ allChans) _ fun h => hx ?_).trans (keeps_settle _))
  exact (congrArg Setting.loading hexpired.setting).mp h

/-- A change of the loader in one state of it. -/
theorem keeps_updLoader (s : State) (f : Loader → Loader) (h : (f s.loader).state = s.loader.state) :
    Keeps steady s (s.updLoader f) :=
  .of_chans_eq rfl (by simp only [State.setting, State.updLoader, h]) rfl rfl rfl fun _ => rfl

end

theorem loadingAt_loading {s : State} {x : LoadStage} (h : s.loadingAt x = true) : s.loader.state = .loading := by
  simp only [State.loadingAt, Bool.and_eq_true, beq_iff_eq] at h
  exact h.1

section
variable {i : Instr} {s : State}

theorem HeldLaw.not_loading (hl : HeldLaw s) (hr : s.inReset = true) : s.loader.state ≠ .loading := by
  rw [hl.loader hr]; decide

/-- A command that goes on with a load. -/
theorem stepped_updLoader (f : Loader → Loader) (h : s.loader.state = .loading) (hf : (f s.loader).state = .loading) :
    Stepped i s (s.updLoader f) :=
  .keeps _ (keeps_updLoader s f (hf.trans h.symm)) fun hl hr => absurd h (hl.not_loading hr)

/-- A command that ends a load. -/
theorem stepped_endLoad (f : Loader → Loader) (x : LoaderState) (k : Kept) (expired order : List Chan)
    (h : s.loader.state = .loading) (hx : x ≠ .loading) : Stepped i s ((s.updLoader f).endLoad x k expired order) :=
  .loads _ _ _ h hx (keeps_endLoad (s.updLoader f) x k expired order hx)

theorem stepped_refl : Stepped i s s := .keeps s (.refl s) fun _ _ => .inl rfl

theorem stepped_statusReadComplete (status : Byte) : Stepped i s (statusReadComplete status s) := by
  unfold statusReadComplete
  split
  next h =>
    have h := loadingAt_loading h
    split
    · exact stepped_updLoader _ h h
    · exact stepped_updLoader _ h h
  next => exact stepped_refl

theorem stepped_statusPollExpiry : Stepped i s (statusPollExpiry s) := by
  unfold statusPollExpiry
  split
  next h => exact stepped_updLoader _ (loadingAt_loading h) (loadingAt_loading h)
  next => exact stepped_refl

theorem stepped_descriptorByte (b : Byte) (order : List Chan) : Stepped i s (descriptorByte b order s) := by
  unfold descriptorByte
  split
  next h =>
    have h := loadingAt_loading h
    unfold State.testHeader
    dsimp only
    split
    · exact stepped_endLoad _ _ _ _ _ h (by decide)
    · split
      · exact stepped_endLoad _ _ _ _ _ h (by decide)
      · split
        · exact stepped_updLoader (fun l => { l with buffer := l.buffer ++ [b], stage := some .check, selected := false,
                                                     sent := [] }) h h
        · exact stepped_updLoader _ h h
  next => exact stepped_refl

theorem stepped_descriptorCheck (order : List Chan) : Stepped i s (descriptorCheck order s) := by
  unfold descriptorCheck
  split
  next h =>
    have h := loadingAt_loading h
    split
    · exact stepped_updLoader _ h h
    · exact stepped_endLoad id _ _ _ _ h (by decide)
  next => exact stepped_refl

theorem stepped_descriptorParse (expired order : List Chan) : Stepped i s (descriptorParse expired order s) := by
  unfold descriptorParse
  split
  next h => exact stepped_endLoad id _ _ _ _ (loadingAt_loading h) (by split <;> decide)
  next => exact stepped_refl

theorem stepped_loadLimitExpiry (order : List Chan) : Stepped i s (loadLimitExpiry order s) := by
  unfold loadLimitExpiry
  split
  next h => exact stepped_endLoad id _ _ _ _ h.1 (by decide)
  next => exact stepped_refl

/-- Every command completes, and does one of the four things. -/
theorem exec_stepped (i : Instr) (s : State) : ∃ t, exec i s = .next t ∧ Stepped i s t := by
  cases i with
  | resetAssertion => exact ⟨_, rfl, .reset rfl⟩
  | resetRelease lanes =>
    refine ⟨_, rfl, ?_⟩
    by_cases hr : s.inReset = true
    · exact .release lanes hr
    · unfold resetRelease
      rw [if_neg hr]
      exact stepped_refl
  | supplyGoodRise c => exact ⟨_, rfl, .keeps _ (keeps_supplyGoodRise s c) fun hl hr => held_supplyGoodRise hl hr c⟩
  | supplyGoodFall c => exact ⟨_, rfl, .keeps _ (keeps_supplyGoodFall s c) fun hl hr => held_supplyGoodFall hl hr c⟩
  | supplyWaitExpiry c => exact ⟨_, rfl, .keeps _ (keeps_supplyWaitExpiry s c) fun hl hr => held_supplyWaitExpiry hl hr c⟩
  | identitySample c nibble =>
    exact ⟨_, rfl, .keeps _ (keeps_identitySample s c nibble) fun hl hr => held_identitySample hl hr c nibble⟩
  | widthCheckOpComplete c data =>
    exact ⟨_, rfl, .keeps _ (keeps_widthCheckOpComplete s c data) fun hl hr => held_widthCheckOpComplete hl hr c data⟩
  | statusReadComplete status => exact ⟨_, rfl, stepped_statusReadComplete status⟩
  | statusPollExpiry => exact ⟨_, rfl, stepped_statusPollExpiry⟩
  | descriptorByte b order => exact ⟨_, rfl, stepped_descriptorByte b order⟩
  | descriptorCheck order => exact ⟨_, rfl, stepped_descriptorCheck order⟩
  | descriptorParse expired order => exact ⟨_, rfl, stepped_descriptorParse expired order⟩
  | loadLimitExpiry order => exact ⟨_, rfl, stepped_loadLimitExpiry order⟩
  | budgetExpiry c => exact ⟨_, rfl, .keeps _ (keeps_deliverExpiry c s) fun hl hr => held_budgetExpiry hl hr c⟩
  | sweepOpsComplete c reads =>
    exact ⟨_, rfl, .keeps _ (keeps_sweepOpsComplete id reads) fun hl hr => held_sweepOpsComplete hl hr c reads⟩
  | pauseExpiry c => exact ⟨_, rfl, .keeps _ (keeps_pauseExpiry s c) fun hl hr => held_pauseExpiry hl hr c⟩
  | shadowClaim c => exact ⟨_, rfl, .keeps _ (keeps_shadowClaim s c) fun hl hr => held_shadowClaim hl hr c⟩
  | analysisComplete c => exact ⟨_, rfl, .keeps _ (keeps_analysisComplete s c) fun hl hr => held_analysisComplete hl hr c⟩
  | noResponse c => exact ⟨_, rfl, .keeps _ (keeps_noResponse s c) fun hl hr => held_noResponse hl hr c⟩
  | requestArrival p header data begun =>
    refine ⟨_, rfl, .keeps _ (keeps_requestArrival p header data begun s) fun _ hr => .inl ?_⟩
    unfold requestArrival
    rw [if_pos hr]
  | portBlockComplete p data begun =>
    exact ⟨_, rfl, .keeps _ (keeps_portBlockComplete p data begun s) fun hl hr => held_portBlockComplete hl hr p data begun⟩
  | messageSent p => exact ⟨_, rfl, .keeps _ (keeps_messageSent p s) fun hl hr => held_messageSent hl hr p⟩
  | reportBlockComplete c =>
    exact ⟨_, rfl, .keeps _ (keeps_reportBlockComplete c s) fun hl hr => held_reportBlockComplete hl hr c⟩

end

end Sys2Proof.Machine
end

section
/-! The laws that a step keeps of the sequencers, the arbiter, the Fail Logs, the Remap Tables, the shadow pool and the
credits (O53 to O57, O59), and that every command completes (O2). -/

namespace Sys2Proof.Machine

/-! ### Reset assertion and release -/

theorem resetAssertion_chan (s : State) (c : Chan) :
    (resetAssertion s).chan c = Channel.reset (s.chan c).supplyGood := by
  simp [resetAssertion, State.chan]

/-- The channel as its timer and its supply wait start, which an active supply-good input ends at once (R89, R116). -/
def Channel.released (lanes : BitVec 8) (ch : Channel) : Channel :=
  let timed : Channel := { ch with seq := { ch.seq with timer := timerUnder (strapBudget lanes) } }
  if ch.supplyGood then timed.identifies else { timed with seq := { timed.seq with supplyWait := true } }

/-- The same update of each of a list of channels. -/
theorem foldl_updChan (f : Channel → Channel) {l : List Chan} (hl : l.Nodup) (s : State) :
    l.foldl (fun x c => x.updChan c f) s = { s with chans := (l.foldl (fun x c => x.updChan c f) s).chans } ∧
      ∀ d, (l.foldl (fun x c => x.updChan c f) s).chan d = if d ∈ l then f (s.chan d) else s.chan d := by
  induction l generalizing s with
  | nil => exact ⟨rfl, fun d => by simp⟩
  | cons c l ih =>
    obtain ⟨hc, hl⟩ := List.nodup_cons.mp hl
    obtain ⟨hframe, hchan⟩ := ih hl (s.updChan c f)
    refine ⟨hframe, fun d => ?_⟩
    rw [List.foldl_cons, hchan, chan_updChan]
    by_cases hd : d = c
    · subst hd; simp [hc]
    · simp [hd]

theorem beginSupplyWait_eq (s : State) (c : Chan) :
    s.beginSupplyWait c = s.updChan c fun ch =>
      if ch.supplyGood then ch.identifies else { ch with seq := { ch.seq with supplyWait := true } } := by
  unfold State.beginSupplyWait
  split
  next h => rw [enterIdentifying_eq]; exact updChan_congr s c (by rw [if_pos h])
  next h => exact updChan_congr s c (by rw [if_neg h])

/-- The shared blocks at reset release (R87, R110, R122). -/
def State.released (s : State) (lanes : BitVec 8) : State :=
  { s with inReset := false, strap := lanes, loader := s.loader.release (strapDescriptor lanes),
           arbiter := { s.arbiter with slots := slotCount (strapSlotCode lanes) } }

theorem resetRelease_eq {s : State} (lanes : BitVec 8) (h : s.inReset = true) :
    resetRelease lanes s = { s.released lanes with chans := (resetRelease lanes s).chans } ∧
      ∀ c, (resetRelease lanes s).chan c = (s.chan c).released lanes := by
  have hall : ∀ c : Chan, c ∈ allChans := by decide
  unfold resetRelease
  rw [if_pos h]
  simp only [beginSupplyWait_eq, State.updSeq]
  obtain ⟨htimer, htimers⟩ := foldl_updChan (fun ch => { ch with seq := { ch.seq with timer := timerUnder (strapBudget lanes) } })
    (l := allChans) (by decide) (s.released lanes)
  obtain ⟨hwait, hwaits⟩ := foldl_updChan
    (fun ch => if ch.supplyGood then ch.identifies else { ch with seq := { ch.seq with supplyWait := true } })
    (l := allChans) (by decide) (allChans.foldl (fun x c => x.updChan c fun ch =>
      { ch with seq := { ch.seq with timer := timerUnder (strapBudget lanes) } }) (s.released lanes))
  refine ⟨?_, fun c => ?_⟩
  · refine hwait.trans ?_
    conv_lhs => rw [htimer]
    rfl
  · refine (hwaits c).trans ?_
    rw [htimers, if_pos (hall c), if_pos (hall c)]
    rfl

/-- Reset release is a move of a channel in reset. -/
theorem released_moves {e : Setting} (lanes : BitVec 8) (good : Bool) :
    ChanMoves e (Channel.reset good) ((Channel.reset good).released lanes) := by
  refine .trans (.single (.clock (timerUnder (strapBudget lanes)) false)) (.single ?_)
  unfold Channel.released
  cases good with
  | true => exact .bringUp _ _ (.inl rfl) (.inr (.inl rfl)) (fun _ => rfl) nofun ⟨rfl, id⟩
  | false => exact .bringUp _ _ (.inl rfl) (.inl rfl) (fun h => absurd rfl h) (fun _ => rfl) (.refl _)

/-! ### The channels after a command -/

/-- The end of a load asks nothing of the channels or the arbiter. -/
theorem Ordered.loaded {s : State} (h : Ordered s) {l : Loader} {cap : Nat} : Ordered (s.loaded l cap) :=
  ⟨h.chans, h.queue.waiting, h.queue.holding, h.queue.wait_nodup, h.queue.hold_nodup⟩

/-- The queue of commands has no part in the laws. -/
theorem Ordered.withPending {s : State} (h : Ordered s) {q : List Instr} : Ordered { s with pending := q } :=
  ⟨h.chans, h.queue.waiting, h.queue.holding, h.queue.wait_nodup, h.queue.hold_nodup⟩

/-- A channel in reset is orderly. -/
theorem reset_orderly (good : Bool) : (Channel.reset good).Orderly := ⟨nofun, nofun, fun h => absurd rfl h, nofun⟩

/-- A law of every channel, given the strap word, that holds in reset and that every move keeps, is kept by every command. -/
theorem Stepped.chans {P : BitVec 8 → Channel → Prop} {i : Instr} {s t : State} (h : Stepped i s t) (hs : SequencerLaw s)
    (reset : ∀ strap good, P strap (Channel.reset good))
    (move : ∀ (e : Setting) a b, (RefreshLaw s → e.steady) → ChanMove e a b → a.Orderly → P e.strap a → P e.strap b)
    (hP : ∀ c, P s.strap (s.chan c)) (c : Chan) : P t.strap (t.chan c) := by
  obtain ⟨hheld, hord⟩ := (sequencerLaw_iff s).mp hs
  have moves (e : Setting) (hsteady : RefreshLaw s → e.steady) {a b : Channel} (hm : ChanMoves e a b) (ho : a.Orderly)
      (ha : P e.strap a) : P e.strap b :=
    (hm.keep (P := P e.strap) (fun a b hab => move e a b hsteady hab) ho ha).2
  cases h with
  | reset => rw [resetAssertion_chan]; exact reset _ _
  | release lanes hr =>
    obtain ⟨hframe, hchan⟩ := resetRelease_eq lanes hr
    have hstrap : (resetRelease lanes s).strap = lanes := by rw [hframe]; rfl
    rw [hstrap, hchan, hheld.chan hr c]
    exact moves { strap := lanes, cap := 0, loading := False, steady := True } (fun _ => trivial)
      (released_moves lanes _) (reset_orderly _) (reset _ _)
  | keeps _ hk =>
    have hstrap : t.strap = s.strap := congrArg Setting.strap hk.setting
    rw [hstrap]
    exact moves (s.setting (RefreshLaw s)) id (hk.moves hord c) (hord.chans c) (hP c)
  | loads l cap _ hl hended hk =>
    have hstrap : t.strap = s.strap := congrArg Setting.strap hk.setting
    rw [hstrap]
    exact moves ((s.loaded l cap).setting (RefreshLaw s)) id (hk.moves hord.loaded c) (hord.chans c) (hP c)

/-! ### The step -/

/-- A step idles, or runs a command on the part with the queue's rest. -/
theorem step_cases {s t : State} (h : step s = .next t) :
    t = s ∨ ∃ i rest, s.pending = i :: rest ∧ Stepped i { s with pending := rest } t := by
  unfold step at h
  split at h
  next => exact .inl (Host.Outcome.next.inj h).symm
  next i rest hq =>
    obtain ⟨t', ht', hstep⟩ := exec_stepped i { s with pending := rest }
    obtain rfl := Host.Outcome.next.inj (h.symm.trans ht')
    exact .inr ⟨i, rest, hq, hstep⟩

theorem Stepped.pending {i : Instr} {s t : State} (h : Stepped i s t) : t.pending = s.pending := by
  cases h with
  | reset => rfl
  | release lanes hr => rw [(resetRelease_eq lanes hr).1]; rfl
  | keeps _ hk => exact hk.pending
  | loads l cap _ _ _ hk => exact hk.pending

/-- Settles O2: every command does one of the four things, each of which leaves the queue. -/
theorem everyCommandCompletes : Obligations.EveryCommandCompletes := fun s i =>
  let ⟨t, ht, h⟩ := exec_stepped i s
  ⟨t, ht, h.pending⟩

/-! ### The sequencers and the arbiter -/

theorem heldLaw_resetAssertion (s : State) : HeldLaw (resetAssertion s) := fun _ =>
  ⟨fun c => by rw [resetAssertion_chan]; rfl, rfl, rfl, rfl, rfl, rfl, rfl⟩

theorem Stepped.heldLaw {i : Instr} {s t : State} (h : Stepped i s t) (hl : HeldLaw s) : HeldLaw t := by
  cases h with
  | reset => exact heldLaw_resetAssertion s
  | release lanes hr => rw [(resetRelease_eq lanes hr).1]; exact nofun
  | keeps _ hk held =>
    intro hr
    exact (held hl (hk.inReset ▸ hr)).heldLaw hl hr
  | loads l cap _ hloading _ hk => exact fun hr => absurd hloading (hl.not_loading (hk.inReset.symm.trans hr))

/-- With every channel in POWERING or IDENTIFYING and no holder, the arbiter keeps R110's law. -/
theorem queueLaw_of_early {s : State} (hh : s.arbiter.holders = []) (hw : s.arbiter.waitQueue = [])
    (hc : ∀ c, (s.seqState c).early) : QueueLaw s := by
  refine ⟨fun c => ?_, fun c => ?_, by simp [hw], by simp [hh]⟩
  · rw [hw]
    exact iff_of_false List.not_mem_nil fun h => (hc c).notMem (by simp [h])
  · rw [hh]
    exact iff_of_false List.not_mem_nil fun h => (hc c).notMem (by simp [h])

theorem released_early (lanes : BitVec 8) (good : Bool) : ((Channel.reset good).released lanes).seq.state.early := by
  cases good with
  | true => exact .inr (.inl rfl)
  | false => exact .inl rfl

theorem Stepped.queueLaw {i : Instr} {s t : State} (h : Stepped i s t) (hs : SequencerLaw s) :
    QueueLaw t ∧ (ArbiterLaw s → ArbiterLaw t) := by
  obtain ⟨hheld, hord⟩ := (sequencerLaw_iff s).mp hs
  cases h with
  | reset =>
    refine ⟨queueLaw_of_early rfl rfl fun c => ?_, fun _ => ⟨Nat.zero_le _, fun h => absurd rfl h⟩⟩
    unfold State.seqState
    rw [resetAssertion_chan]
    exact .inl rfl
  | release lanes hr =>
    obtain ⟨hframe, hchan⟩ := resetRelease_eq lanes hr
    obtain ⟨-, hh, hw, -⟩ := hheld hr
    have hh' : (resetRelease lanes s).arbiter.holders = [] := by rw [hframe]; exact hh
    have hw' : (resetRelease lanes s).arbiter.waitQueue = [] := by rw [hframe]; exact hw
    refine ⟨queueLaw_of_early hh' hw' fun c => ?_, fun _ => ⟨by rw [hh']; exact Nat.zero_le _, fun h => absurd hw' h⟩⟩
    unfold State.seqState
    rw [hchan, hheld.chan hr c]
    exact released_early _ _
  | keeps _ hk => exact ⟨(hk.ordered hord).queue, hk.arbiter hord⟩
  | loads l cap _ _ _ hk =>
    exact ⟨(hk.ordered hord.loaded).queue, hk.arbiter hord.loaded⟩

/-- Settles O53: the moves keep each channel's work in its state, and the arbiter's lists follow the states. -/
theorem sequencerAndArbiterLawsKept : Obligations.SequencerAndArbiterLawsKept := by
  intro s t hs ha h
  obtain rfl | ⟨i, rest, -, hstep⟩ := step_cases h
  · exact ⟨hs, ha⟩
  · obtain ⟨hqueue, harb⟩ := hstep.queueLaw hs
    refine ⟨(sequencerLaw_iff t).mpr ⟨hstep.heldLaw hs.1, ⟨?_, hqueue⟩⟩, harb ha⟩
    exact hstep.chans (P := fun _ => Channel.Orderly) hs (fun _ => reset_orderly) (fun e a b _ hm ho _ => hm.orderly ho)
      ((sequencerLaw_iff s).mp hs).2.chans

/-! ### The Fail Logs and the Remap Tables -/

/-- Settles O54: a move leaves the Fail Log, takes events into it, rewrites statuses, or empties it. -/
theorem failLogLawsKept : Obligations.FailLogLawsKept := by
  intro s t hs hl hv h
  obtain rfl | ⟨i, rest, -, hstep⟩ := step_cases h
  · exact ⟨hl, hv⟩
  · have := hstep.chans (P := fun _ ch => ch.log.Ok ∧ ch.VisibleOk) hs
      (fun _ _ => ⟨FailLog.empty_ok, by simp [Channel.reset, FailLog.empty], fun _ => rfl⟩)
      (fun e a b _ hm ho h => ⟨hm.logOk h.1, hm.visibleOk ho h.2⟩)
      fun c => ⟨(logLaw_iff s).mp hl c, (visibleLaw_iff s).mp hv c⟩
    exact ⟨(logLaw_iff t).mpr fun c => (this c).1, (visibleLaw_iff t).mpr fun c => (this c).2⟩

theorem reset_tables (good : Bool) : (Channel.reset good).RepairOk ∧ (Channel.reset good).SpareOk :=
  ⟨⟨.refl _, nofun⟩, ⟨by simp [Channel.reset, sparesOf], by simp [Channel.reset, sparesOf], by simp [Channel.reset], nofun,
    nofun, fun _ => rfl⟩⟩

/-- Settles O55: an analysis adds each repaired record's one entry, and every other move leaves the table or empties it. -/
theorem remapTableLawsKept : Obligations.RemapTableLawsKept := by
  intro s t hs hl hr hp h
  obtain rfl | ⟨i, rest, -, hstep⟩ := step_cases h
  · exact ⟨hr, hp⟩
  · have := hstep.chans (P := fun _ ch => ch.log.Ok ∧ ch.RepairOk ∧ ch.SpareOk) hs
      (fun _ _ => ⟨FailLog.empty_ok, reset_tables _⟩)
      (fun e a b _ hm ho h => ⟨hm.logOk h.1, hm.tables ho h.1 h.2.1 h.2.2⟩)
      fun c => ⟨(logLaw_iff s).mp hl c, (repairLaw_iff s).mp hr c, (spareLaw_iff s).mp hp c⟩
    exact ⟨(repairLaw_iff t).mpr fun c => (this c).2.1, (spareLaw_iff t).mpr fun c => (this c).2.2⟩

/-! ### The ports -/

/-- Settles O57: every move keeps the credits in step with the queue. -/
theorem creditLawKept : Obligations.CreditLawKept := by
  intro s t hs hc h
  obtain rfl | ⟨i, rest, -, hstep⟩ := step_cases h
  · exact hc
  · rw [creditLaw_iff] at hc ⊢
    exact hstep.chans (P := fun _ ch => CreditOk ch.seq.state ch.port) hs (fun _ _ => ⟨nofun, nofun, fun _ _ _ => rfl, nofun⟩)
      (fun e a b _ hm ho h => hm.creditOk ho h) hc

/-! ### The shadow pool -/

theorem Stepped.poolLaw {i : Instr} {s t : State} (h : Stepped i s t) (hp : PoolLaw s) : PoolLaw t := by
  cases h with
  | reset =>
    refine ⟨fun c e => ?_, reset_store_wf⟩
    rw [resetAssertion_chan]
    simp only [resetAssertion, State.reset, Shadow.reset, Channel.reset, namesOf, Vector.toList_replicate,
      List.getElem?_replicate]
    split <;> simp_all
  | release lanes hr =>
    obtain ⟨hframe, hchan⟩ := resetRelease_eq lanes hr
    refine ⟨shadowLaw_of_entries (by rw [hframe]; rfl) (fun c => ?_) hp.1, by rw [hframe]; exact hp.2⟩
    rw [hchan, Channel.released]
    dsimp only
    split <;> rfl
  | keeps _ hk => exact hk.pool hp
  | loads l cap _ _ _ hk => exact hk.pool hp

theorem Stepped.capLaw {i : Instr} {s t : State} (h : Stepped i s t) (hs : SequencerLaw s) (hc : CapLaw s) : CapLaw t := by
  obtain ⟨hheld, hord⟩ := (sequencerLaw_iff s).mp hs
  have reset_ok (cap : Nat) (loading : Prop) (good : Bool) : (Channel.reset good).CapOk cap loading :=
    ⟨Nat.zero_le _, nofun, fun _ => ⟨rfl, nofun, nofun, nofun⟩⟩
  have kept {s t : State} {steady : Prop} (hord : Ordered s) (hk : Keeps steady s t) (hc : CapLaw s) : CapLaw t := by
    rw [capLaw_iff] at hc ⊢
    have hcap : t.shadow.cap = s.shadow.cap := congrArg Setting.cap hk.setting
    have hload : (t.loader.state = .loading) = (s.loader.state = .loading) := congrArg Setting.loading hk.setting
    intro c
    rw [hcap, hload]
    exact ((hk.moves hord c).keep (P := Channel.CapOk s.shadow.cap (s.loader.state = .loading))
      (fun a b hm ho h => hm.capOk ho h) (hord.chans c) (hc c)).2
  cases h with
  | reset =>
    rw [capLaw_iff]
    intro c
    rw [resetAssertion_chan]
    exact reset_ok _ _ _
  | release lanes hr =>
    rw [capLaw_iff]
    intro c
    rw [(resetRelease_eq lanes hr).2, hheld.chan hr c]
    exact ((released_moves (e := { strap := lanes, cap := _, loading := _, steady := True }) lanes _).keep
      (P := Channel.CapOk _ _) (fun a b hm ho h => hm.capOk ho h) (reset_orderly _) (reset_ok _ _ _)).2
  | keeps _ hk => exact kept hord hk hc
  | loads l cap _ hloading hended hk =>
    refine kept hord.loaded hk ?_
    obtain ⟨-, -, hearly⟩ := hc
    refine ⟨fun c => ?_, fun c a ha => ?_, fun h => absurd h hended⟩
    · show heldEntries (s.chan c).remap ≤ _
      rw [(hearly hloading c).1]
      exact Nat.zero_le _
    · exact absurd ((hord.chans c).analyser (by rw [show (s.chan c).analyser = some a from ha]; rfl))
        (hearly hloading c).2.2.2

theorem sum_range_indicator : ∀ n < 32, ((List.range 32).map fun e => if e = n then 1 else 0).sum = 1 := by decide

/-- The SHADOW entries of a table that names no entry beyond the pool, counted entry by entry. -/
theorem heldEntries_eq_sum {t : List RemapEntry} (h : ∀ x ∈ t, ∀ n, x.target = .shadow n → n < 32) :
    heldEntries t = ((List.range 32).map (namesOf t)).sum := by
  induction t with
  | nil => rfl
  | cons x t ih =>
    have ih := ih fun y hy => h y (List.mem_cons_of_mem x hy)
    cases hx : x.target with
    | spare k =>
      have hheld : heldEntries (x :: t) = heldEntries t := by simp [heldEntries, hx, Target.isShadow]
      have hnames : namesOf (x :: t) = namesOf t := funext fun e => by simp [namesOf, hx]
      rw [hheld, hnames, ih]
    | shadow n =>
      have hheld : heldEntries (x :: t) = heldEntries t + 1 := by simp [heldEntries, hx, Target.isShadow]
      have hnames : namesOf (x :: t) = fun e => namesOf t e + if e = n then 1 else 0 := by
        funext e
        by_cases he : e = n
        · simp [namesOf, hx, he]
        · simp [namesOf, hx, he, Ne.symm he]
      rw [hheld, hnames, List.sum_map_add, ← ih, sum_range_indicator n (h x List.mem_cons_self n hx)]

/-- The places of a list that hold `x`, counted place by place. -/
theorem length_filter_eq_sum {α : Type} [DecidableEq α] (l : List α) (x : α) :
    (l.filter (· = x)).length = ((List.range l.length).map fun e => if l[e]? = some x then 1 else 0).sum := by
  induction l with
  | nil => rfl
  | cons y l ih =>
    rw [List.length_cons, List.range_succ_eq_map, List.map_cons, List.map_map, List.sum_cons]
    simp only [Function.comp_def, List.getElem?_cons_zero, List.getElem?_cons_succ, Option.some.injEq]
    rw [← ih]
    by_cases hy : y = x
    · simp [hy, Nat.add_comm]
    · simp [hy]

/-- Each place is free or records one channel. -/
theorem length_eq_sum_holders (l : List (Option Chan)) :
    (l.filter (· = none)).length + (allChans.map fun c => (l.filter (· = some c)).length).sum = l.length := by
  induction l with
  | nil => rfl
  | cons x l ih =>
    cases x with
    | none =>
      rw [List.length_cons, ← ih]
      simp [allChans]
      omega
    | some c =>
      rw [List.length_cons, ← ih]
      fin_cases c <;> simp [allChans] <;> omega

/-- Free and named entries number 32 (R77). -/
theorem ShadowLaw.count {s : State} (h : ShadowLaw s) :
    (s.shadow.holders.toList.filter fun x => x = none).length +
      (allChans.map fun c => heldEntries (s.chan c).remap).sum = 32 := by
  have hlen : s.shadow.holders.toList.length = 32 := by simp
  have hheld (c : Chan) : heldEntries (s.chan c).remap = (s.shadow.holders.toList.filter (· = some c)).length := by
    rw [heldEntries_eq_sum fun x hx n hn => ?_, length_filter_eq_sum, hlen]
    · exact congrArg List.sum (List.map_congr_left fun e _ => h c e)
    · by_contra hge
      have hzero := h c n
      rw [List.getElem?_eq_none (by omega), if_neg nofun, namesOf, List.length_eq_zero_iff, List.filter_eq_nil_iff] at hzero
      exact hzero x hx (by simp [hn])
  simp only [hheld]
  exact (length_eq_sum_holders _).trans hlen

/-- Settles O56: claims and freeings keep the places in step with the tables; no other move touches a SHADOW entry. -/
theorem shadowPoolLawsKept : Obligations.ShadowPoolLawsKept := by
  refine ⟨fun s t hs hw h => ?_, fun s h => h.count, fun s t hs hc h => ?_⟩
  · obtain rfl | ⟨i, rest, -, hstep⟩ := step_cases h
    · exact ⟨hs, hw⟩
    · exact hstep.poolLaw ⟨hs, hw⟩
  · obtain rfl | ⟨i, rest, -, hstep⟩ := step_cases h
    · exact hc
    · exact hstep.capLaw hs hc

/-! ### FAILED and ABSENT -/

/-- Settles O59: no move leads out of FAILED or ABSENT, and no claim or freeing touches what such a channel holds. -/
theorem lostChannelStays : Obligations.LostChannelStays := by
  intro s t c hs hc hfront h
  obtain ⟨hheld, hord⟩ := (sequencerLaw_iff s).mp hs
  obtain rfl | ⟨i, rest, hq, hstep⟩ := step_cases h
  · exact ⟨rfl, rfl, rfl, ⟨rfl, rfl, rfl⟩, fun _ => id⟩
  have kept {e : Setting} {b : Channel} (hm : ChanMoves e (s.chan c) b) : LostKept (s.chan c) b :=
    hm.lostKept (hord.chans c) hc
  cases hstep with
  | reset hi => exact absurd (by rw [hq, hi]; rfl) hfront
  | release lanes hr =>
    have : s.seqState c = .powering := by unfold State.seqState; rw [hheld.chan hr c]; rfl
    simp [this] at hc
  | keeps _ hk =>
    have hk' := kept (hk.moves hord.withPending c)
    exact ⟨hk'.state, hk'.result, hk'.reason, hk'.repairs, hk.holders hord.withPending c hc⟩
  | loads l cap _ _ _ hk =>
    have hk' := kept (hk.moves hord.withPending.loaded c)
    exact ⟨hk'.state, hk'.result, hk'.reason, hk'.repairs, hk.holders hord.withPending.loaded c hc⟩

end Sys2Proof.Machine
end

section
/-! The step, reset, the supply wait, the loader's reading and the expiries without effect (O1, O3, O4, O5, O8, O10, O15,
O19, O23, O60). -/

namespace Sys2Proof.Machine

/-- Settles O1: both are how `step` is defined. -/
theorem stepRunsFrontCommand : Obligations.StepRunsFrontCommand := fun _ _ _ => ⟨rfl, rfl⟩

/-! ### Reset -/

/-- Settles O3: the shared blocks are the reset state's, and every channel is a channel in reset. -/
theorem resetAssertionResets : Obligations.ResetAssertionResets := by
  intro s
  refine ⟨resetAssertion s, rfl, rfl, rfl, rfl, fun c => ?_, rfl, rfl, fun e => ?_, rfl, rfl, rfl, rfl, rfl, rfl, rfl, rfl,
    rfl, rfl, rfl, rfl, rfl, rfl, rfl, rfl, rfl, rfl, rfl⟩
  · rw [resetAssertion_chan]
    exact ⟨rfl, rfl, rfl, rfl, rfl, rfl, rfl, rfl, rfl, rfl, rfl, rfl, rfl, rfl, rfl, rfl, rfl, rfl, rfl, rfl, rfl, rfl,
      rfl, rfl, rfl, rfl, rfl, rfl, rfl, rfl, rfl, rfl, rfl, rfl⟩
  · show (Vector.replicate 32 none)[e] = none
    simp

theorem seqState_reset (c : Chan) : State.reset.seqState c = .powering := by
  unfold State.seqState; rw [chan_reset]; rfl

theorem reset_sequencerLaw : SequencerLaw State.reset := by
  have hheld : HeldLaw State.reset := fun _ =>
    ⟨fun c => by rw [chan_reset]; rfl, rfl, rfl, rfl, rfl, rfl, rfl⟩
  have absent (x : SeqState) (hx : x ≠ .powering) (c : Chan) : c ∈ ([] : List Chan) ↔ State.reset.seqState c = x := by
    simp [seqState_reset, Ne.symm hx]
  refine ⟨hheld, fun c h => ?_, fun c h => ?_, fun c h => ?_, fun c _ => seqState_reset c, absent _ (by decide),
    absent _ (by decide), .nil, .nil⟩
  · simp [chan_reset, Channel.reset] at h
  · simp [chan_reset, Channel.reset] at h
  · simp [chan_reset, Channel.reset, Sequencer.reset] at h

/-- Settles O60: every law speaks of records, entries, requests, sweeps or a report write, of which a part in reset has
none. -/
theorem lawsHoldAtReset : Obligations.LawsHoldAtReset := by
  have hall (P : Channel → Prop) (h : P (Channel.reset false)) (c : Chan) : P (State.reset.chan c) := by rwa [chan_reset]
  refine ⟨reset_sequencerLaw, ⟨Nat.le_refl _, fun h => absurd rfl h⟩,
    (logLaw_iff _).mpr (hall (fun ch => ch.log.Ok) ⟨by decide, .nil, .nil, nofun⟩), (visibleLaw_iff _).mpr (hall Channel.VisibleOk ⟨nofun, fun _ => rfl⟩),
    (repairLaw_iff _).mpr (hall Channel.RepairOk (reset_tables false).1), (spareLaw_iff _).mpr (hall Channel.SpareOk (reset_tables false).2), ?shadow,
    reset_store_wf, (capLaw_iff _).mpr (hall (Channel.CapOk _ _) ?cap),
    (creditLaw_iff _).mpr (hall (fun ch => CreditOk ch.seq.state ch.port) ⟨nofun, nofun, fun _ _ _ => rfl, nofun⟩),
    (detectorLaw_iff _).mpr (hall (fun ch => DetectorOk _ ch.seq.state ch.port) fun h => absurd rfl h),
    (refreshLaw_iff _).mpr (hall Channel.RefreshOk ⟨rfl, nofun⟩), nofun, ?start, rfl, ?ready⟩
  case cap => exact ⟨by decide, nofun, fun _ => ⟨rfl, by decide⟩⟩
  case shadow =>
    intro c e
    have hnone : State.reset.shadow.holders.toList[e]? ≠ some (some c) := by
      show (Vector.replicate 32 none).toList[e]? ≠ _
      rw [Vector.toList_replicate, List.getElem?_replicate]
      split
      · simp
      · exact nofun
    rw [if_neg hnone, chan_reset]
    rfl
  case start => exact fun h => absurd h (by decide)
  case ready =>
    intro h
    have := (List.all_eq_true.mp h) 0 (by decide)
    rw [seqState_reset] at this
    exact absurd this (by decide)

/-! ### The budget's duration -/

theorem strapBudget_eq (w : BitVec 8) :
    strapBudget w = if w.extractLsb' 3 2 = 3 then some 800 else if w.extractLsb' 3 2 = 2 then some 400
      else if w.extractLsb' 3 2 = 1 then some 1600 else none := by
  unfold strapBudget strapBudgetCode
  generalize w.extractLsb' 3 2 = code
  revert code
  decide

/-- The settled duration is that of the strap word unless a descriptor brings another (R115). -/
theorem settledBudget_eq (s : State) : s.settledBudget = budgetDuration s.strap s.loader.state s.loader.kept := by
  unfold State.settledBudget budgetDuration
  have hdesc : s.loader.hasDescriptor = true ↔ s.loader.state = .valid ∨ s.loader.state = .truncated := by
    simp [Loader.hasDescriptor]
  simp only [hdesc, ← strapBudget_eq]
  generalize (if s.loader.state = .valid ∨ s.loader.state = .truncated then s.loader.kept.budgetExt else none) = ext
  match ext with
  | none => rfl
  | some 0 => rfl
  | some (n + 1) => exact congrArg some (Nat.mul_comm _ _)

theorem timerUnder_eq (limit : Option Nat) : timerUnder limit = timerSettled limit .unlimited := by
  cases limit <;> rfl

theorem settle_eq_timerSettled (t : Timer) (limit : Option Nat) : t.settle limit = timerSettled limit t := by
  cases t <;> cases limit <;> rfl

/-! ### Reset release -/

theorem strapSlotCode_eq (w : BitVec 8) : strapSlotCode w = w.toNat % 4 := by
  unfold strapSlotCode
  rw [BitVec.extractLsb'_toNat, Nat.shiftRight_zero]

theorem slots_of_code (lanes : BitVec 8) (code : BitVec 2) (h : lanes.extractLsb' 0 2 = code) :
    slotCount (strapSlotCode lanes) = slotCount code.toNat := by rw [strapSlotCode, h]

theorem release_of_absent (l : Loader) : l.release false = { l with state := .absent } := rfl

/-- Settles O4. The timers take the strap's budget, since without a descriptor there is no other. -/
theorem resetReleaseStarts : Obligations.ResetReleaseStarts := by
  refine ⟨fun w => ⟨strapSlotCode_eq w, rfl, rfl, rfl⟩, fun s lanes hheld hr => ⟨_, rfl, ?_⟩⟩
  obtain ⟨hframe, hchan⟩ := resetRelease_eq lanes hr
  obtain ⟨-, hholders, hwait, -⟩ := hheld hr
  have hbudget : timerSettled (budgetDuration lanes .absent Kept.nothing) .unlimited = timerUnder (strapBudget lanes) := by
    rw [timerUnder_eq, strapBudget_eq]; rfl
  rw [hbudget, hframe]
  refine ⟨rfl, rfl, rfl, rfl, rfl, rfl, hholders, hwait, slots_of_code lanes _, slots_of_code lanes _,
    slots_of_code lanes _, slots_of_code lanes _, fun h => ?_, fun h => ?_, fun c => ?_⟩
  · exact congrArg s.loader.release h
  · exact congrArg s.loader.release h
  · have hc : ({ s.released lanes with chans := (resetRelease lanes s).chans } : State).chan c =
        (s.chan c).released lanes := hchan c
    simp only [hc, Channel.released]
    refine ⟨fun h => ?_, fun h => ?_⟩
    · rw [if_pos h, hheld.chan hr c]; rfl
    · rw [if_neg (by simp [h])]

/-! ### The supply wait -/

theorem onlyChannel_updChan (s : State) (c : Chan) (f : Channel → Channel) : OnlyChannel c s (s.updChan c f) :=
  ⟨rfl, fun _ h => chan_updChan_ne s f h⟩

/-- A command that ends in an update of channel `c` touches nothing but it. -/
theorem exists_onlyChannel {i : Instr} {s t : State} {c : Chan} {f : Channel → Channel} {ch : Channel}
    (h : exec i s = .next t) (ht : t = s.updChan c f) (hf : f (s.chan c) = ch) :
    ∃ t, exec i s = .next t ∧ OnlyChannel c s t ∧ t.chan c = ch :=
  ⟨t, h, ht ▸ onlyChannel_updChan s c f, by rw [ht, chan_updChan_same, hf]⟩

theorem supplyWaiting_iff (s : State) (c : Chan) :
    s.supplyWaiting c = true ↔ s.seqState c = .powering ∧ (s.chan c).seq.supplyWait = true := by
  simp [State.supplyWaiting]

/-- A loss leaves a channel that has nothing to lose. -/
theorem lose_of_settled {s : State} {c : Chan} (why : Reason)
    (h : s.seqState c ∈ [SeqState.powering, .closing, .failed, .absent]) : s.lose c why = s := by
  unfold State.lose
  split
  all_goals simp_all

/-- Settles O5. -/
theorem supplyWaitEnds : Obligations.SupplyWaitEnds := by
  intro s c
  refine ⟨fun hx hw => ⟨?_, ?_⟩, fun hn => ?_, fun hx => ?_⟩
  · have hwait := (supplyWaiting_iff s c).mpr ⟨hx, hw⟩
    refine exists_onlyChannel (f := fun ch => ({ ch with supplyGood := true } : Channel).identifies) rfl ?_ rfl
    show supplyGoodRise c s = _
    rw [supplyGoodRise, if_pos hwait, enterIdentifying_eq, State.setSupply, updChan_updChan]
  · have hwait := (supplyWaiting_iff s c).mpr ⟨hx, hw⟩
    refine exists_onlyChannel
      (f := fun ch => ({ ch with seq := { ch.seq with supplyUnconfirmed := true } } : Channel).identifies) rfl ?_ rfl
    show supplyWaitExpiry c s = _
    rw [supplyWaitExpiry, if_pos hwait, enterIdentifying_eq, State.updSeq, updChan_updChan]
  · exact exists_onlyChannel rfl (if_neg fun h => hn ((supplyWaiting_iff s c).mp h)) rfl
  · refine exists_onlyChannel (f := fun ch => { ch with supplyGood := false }) rfl ?_ rfl
    show supplyGoodFall c s = _
    unfold supplyGoodFall
    split
    · exact lose_of_settled _ (by simpa [State.seqState, State.setSupply] using hx)
    next hg =>
      refine state_ext rfl rfl (fun d => ?_) rfl rfl rfl rfl rfl rfl
      by_cases hd : d = c
      · subst hd
        rw [chan_updChan_same]
        rw [Bool.not_eq_true] at hg
        rw [← hg]
      · rw [chan_updChan_ne s _ hd]

end Sys2Proof.Machine
end

section
/-! A no-response after a loss, the operations of the width check, the loader's reading, expiries without effect and the end
result (O8, O10, O15, O19, O23). -/

namespace Sys2Proof.Machine

/-! ### The Downstream Sequencer's stream -/

/-- The operation at the head of the stream has completed (R35). -/
def Channel.completed (op : DsOp) (rest : List DsOp) (ch : Channel) : Channel :=
  { ch with ds := { ch.ds with ops := rest, written := landAll [op] ch.ds.written } }

theorem completeHead_eq {s : State} {c : Chan} {op : DsOp} {rest : List DsOp} (h : (s.chan c).ds.ops = op :: rest) :
    s.completeHead c = s.updChan c (Channel.completed op rest) := by
  have := completeHead_chan s c h
  unfold State.completeHead State.updDs at this ⊢
  rw [chan_updChan_same] at this
  refine updChan_congr s c ?_
  exact this

/-- Every operation of the stream has been abandoned (R101). -/
def Channel.dropped (ch : Channel) : Channel :=
  { ch with ds := { ch.ds with ops := [], written := ch.ds.ops.foldl (fun m op => dramDoubt op m) ch.ds.written } }

theorem dropOps_all_eq (s : State) (c : Chan) : (s.dropOps c fun _ => true) = s.updChan c Channel.dropped := by
  unfold State.dropOps State.updDs
  refine updChan_congr s c ?_
  simp [Channel.dropped, List.filter_eq_self.mpr]

theorem any_isRead_iff (ops : List DsOp) : (ops.any fun op => op.write.isNone) = true ↔ ∃ op ∈ ops, op.write = none := by
  simp

/-- A no-response reaches a channel that holds a read (R101). -/
theorem noResponse_eq {s : State} {c : Chan} (h : ∃ op ∈ (s.chan c).ds.ops, op.write = none) :
    noResponse c s = (s.updChan c Channel.dropped).lose c .noResponse := by
  rw [noResponse, if_pos ((any_isRead_iff _).mpr h), dropOps_all_eq]

/-- Settles O8: no loss reaches the channel, so dropping its operations is all. -/
theorem noResponseAfterLoss : Obligations.NoResponseAfterLoss := by
  intro s c hx hread
  have hx : (s.updChan c Channel.dropped).seqState c ∈ [SeqState.closing, .failed, .absent] := by
    simpa [State.seqState, Channel.dropped] using hx
  refine exists_onlyChannel (f := Channel.dropped) rfl ?_ rfl
  exact (noResponse_eq hread).trans (lose_of_settled _ (List.mem_cons_of_mem _ hx))

/-! ### The width check -/

theorem getLsbD_eightWords (w : BitVec 64) {k : Nat} (hk : k < 512) : (eightWords w).getLsbD k = w.getLsbD (k % 64) := by
  simp only [eightWords, BitVec.getLsbD_append]
  split_ifs
  all_goals exact congrArg w.getLsbD (by omega)

theorem eightWords_word (w : BitVec 64) : ∀ j < 8, (eightWords w).extractLsb' (64 * j) 64 = w := by
  intro j hj
  refine BitVec.eq_of_getLsbD_eq fun i hi => ?_
  rw [BitVec.getLsbD_extractLsb', getLsbD_eightWords w (by omega), Nat.mul_add_mod, Nat.mod_eq_of_lt hi]
  simp [hi]

/-- The next operation of the width check has been handed over behind the one that completed. -/
def Channel.widthNext (op : DsOp) (rest : List DsOp) (ident : Ident) (next : DsOp) (ch : Channel) : Channel :=
  { ch with seq := { ch.seq with ident := ident },
            ds := { ch.ds with ops := rest ++ [next], written := landAll [op] ch.ds.written } }

theorem widthNext_eq (s : State) (c : Chan) (op : DsOp) (rest : List DsOp) (ident : Ident) (n : Nat) :
    (((s.updChan c (Channel.completed op rest)).updSeq c fun q => { q with ident := ident }).handWidthOp c n) =
      s.updChan c (Channel.widthNext op rest ident (widthOp n)) := by
  unfold State.handWidthOp State.handOver State.updDs State.updSeq
  rw [updChan_updChan, updChan_updChan]
  rfl

theorem widthCheckOpComplete_live {s : State} {c : Chan} {op : DsOp} {rest : List DsOp} (data : Block)
    (h : (s.chan c).ds.ops = op :: rest) (ho : op.owner = .widthCheck true) :
    widthCheckOpComplete c data s = (s.updChan c (Channel.completed op rest)).widthStep c data := by
  simp only [widthCheckOpComplete, h, List.head?_cons, Option.map_some, ho, completeHead_eq h]

/-- Settles O10. -/
theorem widthCheckOperations : Obligations.WidthCheckOperations := by
  intro s c data op rest hops
  refine ⟨fun n r ho hi hn => ?_, fun ho => ?_⟩
  · have hident : ((s.updChan c (Channel.completed op rest)).chan c).seq.ident = .widthCheck n r := by
      rw [chan_updChan_same]; exact hi
    have hstep : widthCheckOpComplete c data s =
        s.updChan c (Channel.widthNext op rest (.widthCheck (n + 1) (if n = 2 then data else r)) (widthOp (n + 1))) := by
      rw [widthCheckOpComplete_live data hops ho, State.widthStep, hident]
      simp only [List.mem_cons, List.not_mem_nil, or_false] at hn
      obtain rfl | rfl | rfl := hn
      all_goals exact widthNext_eq s c op rest _ _
    obtain ⟨t, hexec, honly, hchan⟩ := exists_onlyChannel (i := .widthCheckOpComplete c data) rfl hstep rfl
    refine ⟨t, widthOp (n + 1), hexec, honly, hchan, rfl, rfl, rfl, rfl, rfl, fun h2 => ?_, fun h2 => ?_⟩
    · simp only [List.mem_cons, List.not_mem_nil, or_false] at hn
      obtain rfl | rfl | rfl := hn
      · rfl
      · exact absurd rfl h2
      · rfl
    · subst h2
      exact ⟨_, rfl, eightWords_word _⟩
  · refine exists_onlyChannel (f := Channel.completed op rest) rfl ?_ rfl
    show widthCheckOpComplete c data s = _
    simp only [widthCheckOpComplete, hops, List.head?_cons, Option.map_some, ho, completeHead_eq hops]

/-! ### The loader -/

theorem loadingAt_iff (s : State) (x : LoadStage) :
    s.loadingAt x = true ↔ s.loader.state = .loading ∧ s.loader.stage = some x := by
  simp [State.loadingAt]

theorem statusReady_iff (status : Byte) : statusReady status = true ↔ status.getLsbD 0 = false ∨ status = 0xFF#8 := by
  simp [statusReady]

/-- Two bytes are the signature exactly when they are 0xA5 and 0x3C (R123). -/
theorem signatureGood_iff {image : List Byte} (h : image.length = 2) :
    signatureGood image = true ↔ image = [0xA5#8, 0x3C#8] := by
  match image, h with
  | [x, y], _ =>
    have hx (a : Byte) (n : Nat) (hn : n < 256) : a.toNat = n ↔ a = BitVec.ofNat 8 n := by
      rw [← BitVec.toNat_inj, BitVec.toNat_ofNat, Nat.mod_eq_of_lt hn]
    simp [signatureGood, u8, hx]

theorem checkGood_iff (image : List Byte) :
    checkGood image = true ↔ (byteSum (image.take 4) + byteSum (image.drop 6)) % 65536 = u16 image 4 := by
  simp [checkGood, checkSum]

/-- Settles O15. -/
theorem loaderReadsImage : Obligations.LoaderReadsImage := by
  refine ⟨fun image i => ⟨rfl, rfl, rfl⟩, fun s status b order hl => ⟨fun hs => ⟨fun h => ?_, fun h0 hff => ?_⟩,
    fun hs => ?_, fun hs hsig hlen => ?_, fun hs hsum => ?_⟩⟩
  · show Host.Outcome.next (statusReadComplete status s) = _
    rw [statusReadComplete, if_pos ((loadingAt_iff s _).mpr ⟨hl, hs⟩), if_pos ((statusReady_iff status).mpr h)]
    rfl
  · show Host.Outcome.next (statusReadComplete status s) = _
    rw [statusReadComplete, if_pos ((loadingAt_iff s _).mpr ⟨hl, hs⟩), if_neg fun h => ?_]
    · rfl
    · exact ((statusReady_iff status).mp h).elim (by simp [h0]) hff
  · show Host.Outcome.next (statusPollExpiry s) = _
    rw [statusPollExpiry, if_pos ((loadingAt_iff s _).mpr ⟨hl, hs⟩)]
    rfl
  · show Host.Outcome.next (descriptorByte b order s) = _
    rw [descriptorByte, if_pos ((loadingAt_iff s _).mpr ⟨hl, hs⟩), State.testHeader, if_neg, if_neg]
    · by_cases h : 4 ≤ (s.loader.buffer ++ [b]).length ∧
        (s.loader.buffer ++ [b]).length = u16 (s.loader.buffer ++ [b]) 2
      · rw [if_pos h]; exact congrArg Host.Outcome.next (if_pos h)
      · rw [if_neg h]; exact congrArg Host.Outcome.next (if_neg h)
    · rintro ⟨h4, hbad⟩
      obtain ⟨hlow, hhigh⟩ := hlen h4
      exact hbad.elim (Nat.not_lt.mpr hlow) (Nat.not_lt.mpr hhigh)
    · rintro ⟨h2, hbad⟩
      exact absurd ((signatureGood_iff h2).mpr (hsig h2)) (by simpa using hbad)
  · show Host.Outcome.next (descriptorCheck order s) = _
    rw [descriptorCheck, if_pos ((loadingAt_iff s _).mpr ⟨hl, hs⟩), if_pos ((checkGood_iff _).mpr hsum)]
    rfl

/-! ### The budget timer -/

/-- Only a running timer expires (R116). -/
theorem deliverExpiry_eq {s : State} {c : Chan} {ms : Nat} (h : (s.chan c).seq.timer = .running ms) :
    s.deliverExpiry c = (s.updSeq c fun q => { q with timer := .expired }).expireBudget c := by
  rw [State.deliverExpiry, h]

theorem deliverExpiry_of_not_running {s : State} {c : Chan} (h : ∀ ms, (s.chan c).seq.timer ≠ .running ms) :
    s.deliverExpiry c = s := by
  unfold State.deliverExpiry
  split
  next ms hms => exact absurd hms (h ms)
  all_goals rfl

/-- From DONE on an expiry has no effect (R120). -/
theorem expireBudget_of_done {s : State} {c : Chan}
    (h : s.seqState c ∈ [SeqState.done, .opened, .draining, .closing, .failed, .absent]) : s.expireBudget c = s := by
  unfold State.expireBudget
  split
  all_goals simp_all

theorem seqState_updSeq_timer (s : State) (c d : Chan) (t : Timer) :
    (s.updSeq c fun q => { q with timer := t }).seqState d = s.seqState d := by
  unfold State.seqState
  rw [chan_updSeq]
  split
  next h => rw [h]
  next => rfl

/-- Settles O19. -/
theorem budgetExpiryWithoutEffect : Obligations.BudgetExpiryWithoutEffect := by
  intro s c
  refine ⟨fun ms hms => ⟨fun hx => ?_, fun hx => ?_⟩, fun h => congrArg Host.Outcome.next (deliverExpiry_of_not_running h)⟩
  · refine exists_onlyChannel (f := fun ch => { ch with seq := { ch.seq with timer := .expired } }) rfl ?_ rfl
    show s.deliverExpiry c = _
    rw [deliverExpiry_eq hms, expireBudget_of_done (by rwa [seqState_updSeq_timer])]
    rfl
  · refine exists_onlyChannel
      (f := fun ch => { ch with seq := { ch.seq with timer := .expired, budgetExpired := true } }) rfl ?_ rfl
    show s.deliverExpiry c = _
    rw [deliverExpiry_eq hms, State.expireBudget, seqState_updSeq_timer, hx]
    exact updSeq_updSeq s c _ _

/-! ### The end result -/

theorem causes_any_iff (k : Causes) :
    k.any = true ↔ k.unrepairable = true ∨ k.column = true ∨ k.overflow = true := by
  simp [Causes.any, or_assoc]

theorem allSwept_iff {ch : Channel} {g : Geometry} (h : ch.geometry = some g) :
    ch.allSwept = true ↔ ∀ b < g.banks, b ∈ ch.seq.fullySwept := by
  simp [Channel.allSwept, h]

/-- Settles O23: the lines of the table in their order. -/
theorem endResultTable : Obligations.EndResultTable := by
  intro ch g openFailed hg
  have hany := causes_any_iff ch.seq.causes
  have hswept := allSwept_iff hg
  refine ⟨hany, fun hf ho => ?_, fun hf ho => ?_, fun hf => if_pos (hany.mpr hf), fun hf => if_neg (mt hany.mp hf),
    fun hf he => ?_, fun hf he hs => ?_, fun hf he hs hr => ?_, fun hf he hs hr => ?_⟩
  all_goals unfold Channel.endResult
  · rw [if_pos (hany.mpr hf), if_pos ho]
  · rw [if_pos (hany.mpr hf), if_neg (by simp [ho])]
  · rw [if_neg (mt hany.mp hf), if_pos (by simp [he])]
  · rw [if_neg (mt hany.mp hf), if_neg (by simp [he]), if_pos (by simpa using mt hswept.mp hs)]
  · rw [if_neg (mt hany.mp hf), if_neg (by simp [he]), if_neg (by simp [hswept.mpr hs]), if_pos (by simp [hr])]
  · rw [if_neg (mt hany.mp hf), if_neg (by simp [he]), if_neg (by simp [hswept.mpr hs]), if_neg (by simp [hr])]

end Sys2Proof.Machine
end

section
/-! The Report Writer and READY: what a settled change of state establishes (R152, R156, R157), and the quiet changes that
leave both as they are. -/

namespace Sys2Proof.Machine

/-! ### The terms of the laws -/

theorem mem_testingStates_iff (x : SeqState) : x ∈ testingStates ↔ x.isTesting = true := by
  cases x <;> simp [SeqState.isTesting, testingStates]

theorem carriesReport_iff (x : SeqState) : x.carriesReport = true ↔ x ∈ [SeqState.done, .opened, .draining] := by
  cases x <;> simp [SeqState.carriesReport]

theorem settled_iff (x : SeqState) : x.settled = true ↔ x ∈ [SeqState.opened, .failed, .absent] := by
  cases x <;> simp [SeqState.settled]

theorem allSettled_iff (s : State) : s.allSettled = true ↔ ∀ c, s.seqState c ∈ [SeqState.opened, .failed, .absent] := by
  have all : ∀ c : Chan, c ∈ allChans := by decide
  simp only [State.allSettled, List.all_eq_true, all, true_implies, settled_iff]

theorem isLiveSweep_iff (op : DsOp) : op.isLiveSweep = true ↔ ∃ how, op.owner = .sweep true how := by
  obtain ⟨owner, _⟩ := op
  cases owner with
  | sweep live how => cases live <;> simp [DsOp.isLiveSweep]
  | widthCheck | port | report => simp [DsOp.isLiveSweep]

/-- The laws of the Report Writer and of READY. -/
structure Reporting (s : State) : Prop where
  writer : WriterLaw s
  start : StartLaw s
  ready : ReadyLaw s

/-- What of these laws every operation keeps, settled or not. -/
structure Poised (s : State) : Prop where
  strap : s.writer.write ≠ none → strapPublish s.strap = true
  ready : s.board.ready = s.board.readyRaised

theorem Reporting.poised {s : State} (h : Reporting s) : Poised s := by
  refine ⟨fun hw => ?_, h.ready.1⟩
  obtain ⟨w, hw⟩ := Option.ne_none_iff_exists'.mp hw
  exact (h.writer w hw).2



/-! ### A settled change of state -/

@[simp] theorem seqState_updWriter (s : State) (f : Writer → Writer) (d : Chan) : (s.updWriter f).seqState d = s.seqState d :=
  rfl

/-- Handing over a block leaves the sequencers, the board lines and the placed channel. -/
theorem carryReportBlock_frame (s : State) (w : Write) :
    (s.carryReportBlock w).writer.write.map Write.chan = some w.chan ∧ (s.carryReportBlock w).board = s.board ∧
      (s.carryReportBlock w).strap = s.strap ∧ (s.carryReportBlock w).writer.pendingPublish = s.writer.pendingPublish ∧
      ∀ d, (s.carryReportBlock w).seqState d = s.seqState d := by
  unfold State.carryReportBlock State.handOver
  dsimp only
  split
  · exact ⟨rfl, rfl, rfl, rfl, fun d => by rw [seqState_updWriter, seqState_updDs]⟩
  · exact ⟨rfl, rfl, rfl, rfl, fun d => by rw [seqState_updWriter, seqState_updDs]⟩
  · exact ⟨rfl, rfl, rfl, rfl, fun _ => rfl⟩
  · exact ⟨rfl, rfl, rfl, rfl, fun _ => rfl⟩

theorem handReportBlock_frame (s : State) (w : Write) :
    (s.handReportBlock w).writer.write.map Write.chan = some w.chan ∧ (s.handReportBlock w).board = s.board ∧
      (s.handReportBlock w).strap = s.strap ∧ (s.handReportBlock w).writer.pendingPublish = s.writer.pendingPublish ∧
      ∀ d, (s.handReportBlock w).seqState d = s.seqState d := by
  unfold State.handReportBlock
  split
  · exact carryReportBlock_frame s w
  · exact ⟨rfl, rfl, rfl, rfl, fun _ => rfl⟩

theorem placeChannel_reportable {s : State} {c : Chan} (h : s.placeChannel = some c) :
    (s.seqState c).reportable = true := by
  unfold State.placeChannel at h
  split at h
  next hr => obtain rfl := Option.some.inj h; exact hr
  next => exact List.find?_some (p := fun c => (s.seqState c).reportable) h

theorem placeChannel_none {s : State} (h : s.placeChannel = none) (c : Chan) : (s.seqState c).reportable = false := by
  have all : ∀ c : Chan, c ∈ allChans := by decide
  unfold State.placeChannel at h
  split at h
  · cases h
  · simpa using List.find?_eq_none.mp h c (all c)

theorem maybeStart_frame (s : State) :
    s.maybeStart.board = s.board ∧ s.maybeStart.strap = s.strap ∧ ∀ d, s.maybeStart.seqState d = s.seqState d := by
  unfold State.maybeStart State.startWrite
  dsimp only
  split
  · split
    · exact ⟨rfl, rfl, fun _ => rfl⟩
    · obtain ⟨-, hb, hs, -, hx⟩ := handReportBlock_frame (s.updWriter fun x => { x with pendingPublish := false }) _
      exact ⟨hb, hs, hx⟩
  · exact ⟨rfl, rfl, fun _ => rfl⟩

/-- An IDLE writer that may start has started, or finds no start due (R152). -/
theorem maybeStart_startLaw (s : State) : StartLaw s.maybeStart := by
  obtain ⟨-, hstrap, hstate⟩ := maybeStart_frame s
  intro hpub hnone
  simp only [hstate]
  rw [hstrap] at hpub
  unfold State.maybeStart State.startWrite at hnone ⊢
  dsimp only at hnone ⊢
  split
  next hdue =>
    rw [if_pos hdue] at hnone
    split
    next hplace =>
      refine ⟨rfl, fun ⟨c, hc⟩ => ?_⟩
      have := placeChannel_none hplace c
      simp [hc, SeqState.reportable] at this
    next c hplace =>
      simp only [hplace] at hnone
      have hchan := (handReportBlock_frame (s.updWriter fun x => { x with pendingPublish := false })
        { chan := c, base := s.placeBase c, blocks := s.reportBlocks, index := 0, blockAt := .waiting,
          startSet := allChans.filter fun d => s.seqState d == .done }).1
      rw [hnone] at hchan
      cases hchan
  next hidle =>
    rw [if_neg hidle] at hnone
    simp only [hpub, hnone, Option.isNone_none, Bool.and_self, Bool.true_and, Bool.or_eq_true, not_or,
      Bool.not_eq_true, autoDue_iff] at hidle
    refine ⟨hidle.1, fun hdone => ?_⟩
    by_contra htesting
    exact hidle.2 ⟨fun c hc => htesting ⟨c, hc⟩, hdone⟩

theorem maybeStart_writerLaw {s : State} (h : WriterLaw s) : WriterLaw s.maybeStart := by
  obtain ⟨-, hstrap, hstate⟩ := maybeStart_frame s
  intro w hw
  rw [hstrap, hstate]
  unfold State.maybeStart State.startWrite at hw
  dsimp only at hw
  split at hw
  next hdue =>
    simp only [Bool.and_eq_true] at hdue
    refine ⟨?_, hdue.1.1⟩
    split at hw
    next => simp_all
    next c hplace =>
      have hchan := (handReportBlock_frame (s.updWriter fun x => { x with pendingPublish := false })
        { chan := c, base := s.placeBase c, blocks := s.reportBlocks, index := 0, blockAt := .waiting,
          startSet := allChans.filter fun d => s.seqState d == .done }).1
      rw [hw] at hchan
      rw [show w.chan = c from Option.some.inj hchan]
      have := placeChannel_reportable hplace
      revert this
      cases s.seqState c <;> simp [SeqState.reportable, SeqState.carriesReport]
  next => exact h w hw

theorem endWrite_frame (s : State) (w : Write) :
    (s.endWrite w).writer.write = none ∧ (s.endWrite w).board = s.board ∧ (s.endWrite w).strap = s.strap := by
  have fold (l : List Chan) : ∀ x : State,
      (l.foldl (fun x c => if x.seqState c = .done then x.openChannel c else x) x).board = x.board ∧
        (l.foldl (fun x c => if x.seqState c = .done then x.openChannel c else x) x).strap = x.strap := by
    induction l with
    | nil => exact fun _ => ⟨rfl, rfl⟩
    | cons c l ih =>
      intro x
      obtain ⟨hb, hs⟩ := ih (if x.seqState c = .done then x.openChannel c else x)
      rw [List.foldl_cons, hb, hs]
      split <;> exact ⟨rfl, rfl⟩
  exact ⟨rfl, (fold w.startSet s).1, (fold w.startSet s).2⟩

theorem abandonWrite_writerLaw {s : State} (h : Poised s) :
    WriterLaw s.abandonWrite ∧ s.abandonWrite.board = s.board ∧ s.abandonWrite.strap = s.strap := by
  unfold State.abandonWrite
  split
  next w hw =>
    split
    next hcarries =>
      refine ⟨fun w' hw' => ?_, rfl, rfl⟩
      obtain rfl := Option.some.inj (hw.symm.trans hw')
      exact ⟨hcarries, h.strap (by simp [hw])⟩
    next =>
      obtain ⟨hnone, hb, hs⟩ := endWrite_frame (s.mapOps w.chan DsOp.discardReport) w
      exact ⟨fun w' hw' => (by simp [hnone] at hw'), hb, hs⟩
  next hw => exact ⟨fun w hw' => (by simp [hw] at hw'), rfl, rfl⟩

/-- A settled change of state has the laws of the report and of READY (R152, R156, R157). -/
theorem settle_reporting {s : State} (h : Poised s) : Reporting s.settle := by
  obtain ⟨hwriter, hb, hs⟩ := abandonWrite_writerLaw h
  have hboard := (maybeStart_frame s.abandonWrite).1.trans hb
  have hready : ReadyLaw s.settle := by
    unfold State.settle
    rw [raiseReady_eq]
    refine ⟨?_, fun hall => ?_⟩
    · show (_ || _ : Bool) = (_ || _ : Bool)
      rw [hboard, h.ready]
    · show (_ || _ : Bool) = true
      rw [show s.abandonWrite.maybeStart.allSettled = true from hall, Bool.or_true]
  refine ⟨?_, ?_, hready⟩
  · have := maybeStart_writerLaw hwriter
    unfold State.settle
    rw [raiseReady_eq]
    exact this
  · have := maybeStart_startLaw s.abandonWrite
    unfold State.settle
    rw [raiseReady_eq]
    exact this

/-- READY stays, and rises only with every channel settled (R157). -/
theorem settle_ready (s : State) : s.settle.board.ready = (s.board.ready || s.settle.allSettled) := by
  have hb : s.abandonWrite.maybeStart.board = s.board := by
    refine (maybeStart_frame _).1.trans ?_
    unfold State.abandonWrite
    split
    · split
      · rfl
      · exact (endWrite_frame _ _).2.1
    · rfl
  unfold State.settle
  rw [raiseReady_eq, hb]
  rfl

end Sys2Proof.Machine
end

section
/-! Every command keeps the laws of the Report Writer and of READY: a command that settles establishes them, and any other
leaves what they speak of. -/

namespace Sys2Proof.Machine

/-! ### What a command may do to the report and to READY -/

/-- What a command does to the report and to READY. -/
structure Answers (s t : State) : Prop where
  laws : Reporting s → Reporting t
  stays : s.board.ready = true → t.board.ready = true
  rises : t.board.ready = true → s.board.ready = true ∨ t.allSettled = true

/-- An operation that keeps the laws and leaves READY. -/
structure Hush (s t : State) : Prop where
  laws : Reporting s → Reporting t
  ready : t.board.ready = s.board.ready

/-- An operation ahead of a settled change: the strap word and READY stand, and no write starts. -/
structure Rough (s t : State) : Prop where
  strap : t.strap = s.strap
  ready : t.board.ready = s.board.ready
  raised : t.board.readyRaised = s.board.readyRaised
  write : t.writer.write ≠ none → s.writer.write ≠ none

/-- Two states alike to the Report Writer, and the second no more settled than the first. -/
structure SameClass (x y : SeqState) : Prop where
  testing : y.isTesting = x.isTesting
  done : y = .done ↔ x = .done
  carries : y.carriesReport = x.carriesReport
  settled : y.settled = true → x.settled = true

/-- An operation of which the Report Writer and READY notice nothing. -/
structure Quiet (s t : State) : Prop where
  strap : t.strap = s.strap
  ready : t.board.ready = s.board.ready
  raised : t.board.readyRaised = s.board.readyRaised
  pendingPublish : t.writer.pendingPublish = s.writer.pendingPublish
  write : t.writer.write.map Write.chan = s.writer.write.map Write.chan
  state : ∀ d, SameClass (s.seqState d) (t.seqState d)

theorem SameClass.rfl' (x : SeqState) : SameClass x x := ⟨rfl, .rfl, rfl, id⟩

theorem SameClass.trans {x y z : SeqState} (h : SameClass x y) (h' : SameClass y z) : SameClass x z :=
  ⟨h'.testing.trans h.testing, h'.done.trans h.done, h'.carries.trans h.carries, h.settled ∘ h'.settled⟩

/-- A channel that is testing is neither DONE, nor carries a report, nor is settled. -/
theorem SeqState.of_isTesting {x : SeqState} (h : x.isTesting = true) :
    x ≠ .done ∧ x.carriesReport = false ∧ x.settled = false := by
  cases x <;> simp_all [SeqState.isTesting, SeqState.carriesReport, SeqState.settled]

theorem SameClass.of_isTesting {x y : SeqState} (hx : x.isTesting = true) (hy : y.isTesting = true) : SameClass x y := by
  obtain ⟨hdx, hcx, -⟩ := SeqState.of_isTesting hx
  obtain ⟨hdy, hcy, hsy⟩ := SeqState.of_isTesting hy
  exact ⟨hy.trans hx.symm, iff_of_false hdy hdx, hcy.trans hcx.symm, by simp [hsy]⟩

section
variable {s t u : State} {c : Chan}

theorem Quiet.refl (s : State) : Quiet s s := ⟨rfl, rfl, rfl, rfl, rfl, fun _ => .rfl' _⟩

theorem Quiet.trans (h : Quiet s u) (h' : Quiet u t) : Quiet s t :=
  ⟨h'.strap.trans h.strap, h'.ready.trans h.ready, h'.raised.trans h.raised, h'.pendingPublish.trans h.pendingPublish,
    h'.write.trans h.write, fun d => (h.state d).trans (h'.state d)⟩

theorem Rough.refl (s : State) : Rough s s := ⟨rfl, rfl, rfl, id⟩

theorem Rough.trans (h : Rough s u) (h' : Rough u t) : Rough s t :=
  ⟨h'.strap.trans h.strap, h'.ready.trans h.ready, h'.raised.trans h.raised, h.write ∘ h'.write⟩

theorem Hush.refl (s : State) : Hush s s := ⟨id, rfl⟩

theorem Hush.trans (h : Hush s u) (h' : Hush u t) : Hush s t := ⟨h'.laws ∘ h.laws, h'.ready.trans h.ready⟩

theorem Quiet.rough (h : Quiet s t) : Rough s t := by
  refine ⟨h.strap, h.ready, h.raised, fun ht hs => ht ?_⟩
  have := h.write
  rw [hs] at this
  exact Option.map_eq_none_iff.mp this

theorem Quiet.allSettled (h : Quiet s t) (ht : t.allSettled = true) : s.allSettled = true :=
  List.all_eq_true.mpr fun d hd => (h.state d).settled (List.all_eq_true.mp ht d hd)

theorem Quiet.reporting (h : Quiet s t) (hs : Reporting s) : Reporting t := by
  refine ⟨fun w hw => ?_, fun hpub hnone => ?_, ?_, fun hall => ?_⟩
  · have hmap := h.write
    rw [hw, Option.map_some, eq_comm, Option.map_eq_some_iff] at hmap
    obtain ⟨v, hv, hchan⟩ := hmap
    obtain ⟨hcarries, hpub⟩ := hs.writer v hv
    rw [(h.state w.chan).carries, h.strap, ← hchan]
    exact ⟨hcarries, hpub⟩
  · have hmap := h.write
    rw [hnone, Option.map_none, eq_comm, Option.map_eq_none_iff] at hmap
    obtain ⟨hpending, hstart⟩ := hs.start (h.strap ▸ hpub) hmap
    refine ⟨h.pendingPublish.trans hpending, fun ⟨c, hc⟩ => ?_⟩
    obtain ⟨d, hd⟩ := hstart ⟨c, (h.state c).done.mp hc⟩
    exact ⟨d, (mem_testingStates_iff _).mpr ((h.state d).testing.trans ((mem_testingStates_iff _).mp hd))⟩
  · rw [h.ready, h.raised]; exact hs.ready.1
  · rw [h.ready]; exact hs.ready.2 (h.allSettled hall)

theorem Quiet.hush (h : Quiet s t) : Hush s t := ⟨h.reporting, h.ready⟩

theorem Hush.answers (h : Hush s t) : Answers s t := ⟨h.laws, h.ready.trans, fun ht => .inl (h.ready.symm.trans ht)⟩

theorem Quiet.answers (h : Quiet s t) : Answers s t := h.hush.answers

theorem Answers.refl (s : State) : Answers s s := (Hush.refl s).answers

theorem Hush.then (h : Hush s u) (h' : Answers u t) : Answers s t :=
  ⟨h'.laws ∘ h.laws, fun hs => h'.stays (h.ready.trans hs), fun ht => by rw [← h.ready]; exact h'.rises ht⟩

theorem Rough.poised (h : Rough s t) (hs : Poised s) : Poised t :=
  ⟨fun hw => h.strap ▸ hs.strap (h.write hw), by rw [h.ready, h.raised]; exact hs.ready⟩

/-- A change of a channel's state, settled. -/
theorem Rough.settle (h : Rough s u) : Answers s u.settle := by
  refine ⟨fun hs => settle_reporting (h.poised hs.poised), fun hs => ?_, fun ht => ?_⟩
  · rw [settle_ready, h.ready, hs, Bool.true_or]
  · rw [settle_ready, h.ready, Bool.or_eq_true] at ht
    exact ht

/-- A settled change that leaves a channel testing does not raise READY. -/
theorem Rough.settle_testing (h : Rough s u) (hx : (u.seqState c).isTesting = true) : Hush s u.settle := by
  refine ⟨h.settle.laws, ?_⟩
  have hstate : u.settle.seqState c = u.seqState c := by
    obtain ⟨-, -, -, hchan⟩ := bystander_settle u
    obtain ⟨-, -, -, -, -, -, -, hopens, -, -⟩ := hchan c
    refine hopens.elim And.left fun ⟨hd, _⟩ => absurd hd ?_
    exact (SeqState.of_isTesting hx).1
  have hall : u.settle.allSettled = false := by
    rw [← Bool.not_eq_true]
    intro hall
    have := List.all_eq_true.mp hall c ((by decide : ∀ c : Chan, c ∈ allChans) c)
    rw [hstate, (SeqState.of_isTesting hx).2.2] at this
    cases this
  rw [settle_ready, hall, h.ready, Bool.or_false]

/-! ### Updates -/

theorem quiet_updChan (s : State) (c : Chan) (f : Channel → Channel)
    (h : SameClass (s.seqState c) (f (s.chan c)).seq.state) : Quiet s (s.updChan c f) := by
  refine ⟨rfl, rfl, rfl, rfl, rfl, fun d => ?_⟩
  rw [seqState_updChan]
  split
  next hd => subst hd; exact h
  next => exact .rfl' _

theorem quiet_updChan_same (s : State) (c : Chan) (f : Channel → Channel) (h : (f (s.chan c)).seq.state = s.seqState c) :
    Quiet s (s.updChan c f) := quiet_updChan s c f (by rw [h]; exact .rfl' _)

theorem quiet_updPort (s : State) (c : Chan) (f : Port → Port) : Quiet s (s.updPort c f) := quiet_updChan_same s c _ rfl

theorem quiet_updSeq (s : State) (c : Chan) (f : Sequencer → Sequencer) (h : (f (s.chan c).seq).state = s.seqState c) :
    Quiet s (s.updSeq c f) := quiet_updChan_same s c _ h

theorem quiet_updDs (s : State) (c : Chan) (f : Downstream → Downstream) : Quiet s (s.updDs c f) :=
  quiet_updChan_same s c _ rfl

theorem quiet_handWidthOp (s : State) (c : Chan) (n : Nat) : Quiet s (s.handWidthOp c n) := by
  unfold State.handWidthOp State.handOver
  exact quiet_updDs s c _

theorem quiet_completeHead (s : State) (c : Chan) : Quiet s (s.completeHead c) := quiet_updDs s c _

theorem rough_updChan (s : State) (c : Chan) (f : Channel → Channel) : Rough s (s.updChan c f) := ⟨rfl, rfl, rfl, id⟩

theorem quiet_updArbiter (s : State) (f : Arbiter → Arbiter) : Quiet s (s.updArbiter f) :=
  ⟨rfl, rfl, rfl, rfl, rfl, fun _ => .rfl' _⟩

/-! ### Slots and sweeps -/

theorem rough_requestSlot (s : State) (c : Chan) : Rough s (s.requestSlot c) := by
  rw [requestSlot_eq]
  split
  · exact ⟨rfl, rfl, rfl, id⟩
  · exact ⟨rfl, rfl, rfl, id⟩

theorem rough_releaseSlot (s : State) (c : Chan) : Rough s (s.releaseSlot c) := by
  rw [releaseSlot_shared]; exact ⟨rfl, rfl, rfl, id⟩

/-- Asking for a slot, in a testing state. -/
theorem quiet_requestSlot (hx : (s.seqState c).isTesting = true) : Quiet s (s.requestSlot c) := by
  rw [requestSlot_eq]
  split
  · refine (quiet_updArbiter s _).trans (quiet_updChan _ c _ (.of_isTesting hx ?_))
    rw [granted_state]; rfl
  · exact (quiet_updArbiter s _).trans (quiet_updChan _ c Channel.queued (.of_isTesting hx rfl))

/-- A channel leaves TESTING for another testing state, and its slot passes on. -/
theorem quiet_release (ho : Ordered s) (hx : s.seqState c = .testing) (g f : Channel → Channel)
    (hf : (f (g (s.chan c))).seq.state.isTesting = true) : Quiet s (((s.updChan c g).releaseSlot c).updChan c f) := by
  have hstate (d : Chan) : SameClass (s.seqState d) ((((s.updChan c g).releaseSlot c).updChan c f).seqState d) := by
    unfold State.seqState
    rw [released_chan ho hx]
    split
    next hd => subst hd; exact .of_isTesting (by rw [show (s.chan d).seq.state = _ from hx]; rfl) hf
    next =>
      split
      next hd =>
        have := ho.head_queued hd
        exact .of_isTesting (by rw [show (s.chan d).seq.state = _ from this]; rfl) (by rw [granted_state]; rfl)
      next => exact .rfl' _
  rw [released_frame] at hstate ⊢
  exact ⟨rfl, rfl, rfl, rfl, rfl, hstate⟩

theorem analysing_state (bank : Nat) (complete : Bool) (cap : Nat) (ch : Channel) :
    (ch.analysing bank complete cap).seq.state = .analysing := by
  unfold Channel.analysing
  rw [(beginAnalysis_keeps ..).1.frame]

theorem quiet_completeSweep (ho : Ordered s) (hx : s.seqState c = .testing) (bank : Nat) : Quiet s (s.completeSweep c bank) := by
  rw [completeSweep_eq]
  exact quiet_release ho hx _ _ (by rw [analysing_state]; rfl)

/-- A sweep is cut short after an update of its channel. -/
theorem quiet_truncate (ho : Ordered s) (hx : s.seqState c = .testing) (f : Channel → Channel) (bank : Nat) :
    Quiet s ((s.updChan c f).truncateSweep c bank) := by
  rw [truncateSweep_eq, updChan_updChan]
  exact quiet_release ho hx _ _ (by rw [analysing_state]; rfl)

theorem quiet_beginPass (m : Sweep) (g : Geometry) (n pass : Nat) : Quiet s (s.beginPass c m g n pass) := by
  unfold State.beginPass
  rw [setMarch_handSweepBlock]
  exact quiet_updChan_same s c _ rfl

theorem quiet_nextElement (ho : Ordered s) (hx : s.seqState c = .testing) (m : Sweep) (g : Geometry) :
    Quiet s (s.nextElement c m g) := by
  unfold State.nextElement
  split
  · exact quiet_beginPass m g _ _
  · exact quiet_completeSweep ho hx _

theorem quiet_endBlock (ho : Ordered s) (hx : s.seqState c = .testing) (m : Sweep) (g : Geometry) (e : Element) :
    Quiet s (s.endBlock c m g e) := by
  unfold State.endBlock State.endPass State.endElement
  split
  · rw [setMarch_handSweepBlock]
    exact quiet_updChan_same s c _ rfl
  · split
    · exact quiet_beginPass m g _ _
    · split
      · exact (quiet_updChan_same s c _ rfl).trans (quiet_updDs _ c _)
      · exact quiet_nextElement ho hx m g

theorem Ordered.testing_of_march (ho : Ordered s) {m : Sweep} (hm : (s.chan c).march = some m) : s.seqState c = .testing :=
  (ho.chans c).march (by simp [hm])

theorem quiet_advanceSweep (ho : Ordered s) : Quiet s (s.advanceSweep c) := by
  unfold State.advanceSweep
  split
  next m g hm hg =>
    split
    · split
      · exact .refl s
      · exact quiet_endBlock ho (ho.testing_of_march hm) m g _
    · exact .refl s
  next => exact .refl s

theorem quiet_compareRead (ho : Ordered s) (op : DsOp) (how : MarchOp) (data : Block) :
    Quiet s (s.compareRead c op how data) := by
  unfold State.compareRead
  split
  next m g hm hg =>
    split
    · dsimp only
      split
      · exact .refl s
      · simp only [State.setMarch, State.setLog, State.updSeq, updChan_updChan]
        split
        · exact quiet_truncate ho (ho.testing_of_march hm) _ m.bank
        · exact quiet_updChan_same s c _ rfl
    · exact .refl s
  next => exact .refl s

theorem quiet_completeSweepOps (n : Nat) {s : State} (ho : Ordered s) (reads : List Block) :
    Quiet s (State.completeSweepOps n s c reads) := by
  induction n generalizing s reads with
  | zero => exact .refl s
  | succ n ih =>
    have hhead : Keeps False s (s.completeHead c) := keeps_completeHead s c
    rw [State.completeSweepOps]
    split
    · exact .refl s
    · split
      · exact (quiet_completeHead s c).trans (ih (hhead.ordered ho) _)
      · refine (quiet_completeHead s c).trans ((quiet_compareRead (hhead.ordered ho) _ _ _).trans (ih ?_ _))
        exact (hhead.trans (keeps_compareRead ..)).ordered ho
      · exact (quiet_completeHead s c).trans (ih (hhead.ordered ho) _)
      · exact .refl s

theorem quiet_sweepOpsComplete (ho : Ordered s) (reads : List Block) : Quiet s (sweepOpsComplete c reads s) := by
  unfold sweepOpsComplete
  dsimp only
  have hops : Quiet s (State.completeSweepOps (sweepRun (s.chan c).ds.ops) s c reads) := quiet_completeSweepOps _ ho reads
  split
  · exact hops.trans (quiet_advanceSweep ((keeps_completeSweepOps (steady := False) _ s reads).1.ordered ho))
  · exact hops

theorem quiet_pauseExpiry (ho : Ordered s) : Quiet s (pauseExpiry c s) := by
  unfold pauseExpiry
  split
  next m g hm hg =>
    split
    next hp =>
      have hx := ho.testing_of_march hm
      unfold State.nextElement
      split
      · exact ((quiet_updChan_same s c _ rfl).trans (quiet_updDs _ c _)).trans (quiet_beginPass _ g _ _)
      · rw [completeSweep_eq, State.setMarch, State.updDs, updChan_updChan, updChan_updChan]
        exact quiet_release ho hx _ _ (by rw [analysing_state]; rfl)
    next => exact .refl s
  next => exact .refl s

theorem quiet_shadowClaim : Quiet s (shadowClaim c s) := by
  unfold shadowClaim State.answerClaim
  split
  · split
    · split
      · refine Quiet.trans (u := { s with shadow := s.shadow.grant _ c }) ⟨rfl, rfl, rfl, rfl, rfl, fun _ => .rfl' _⟩
          (quiet_updChan_same _ c _ ?_)
        rw [(primaryPass_keeps ..).1.frame]; rfl
      · refine quiet_updChan_same s c _ ?_
        rw [(primaryPass_keeps ..).1.frame]; rfl
    · exact .refl s
  · exact .refl s

/-! ### Bring-up, selection, loss and expiry -/

theorem quiet_enterIdentifying (h : s.seqState c = .powering) : Quiet s (s.enterIdentifying c) := by
  rw [enterIdentifying_eq]
  exact quiet_updChan s c _ (.of_isTesting (by rw [h]; rfl) rfl)

theorem quiet_supplyGoodRise : Quiet s (supplyGoodRise c s) := by
  unfold supplyGoodRise
  split
  next h =>
    refine (quiet_updChan_same s c _ rfl).trans (quiet_enterIdentifying ?_)
    rw [seqState_updChan, if_pos rfl]
    exact supplyWaiting_powering h
  next => exact quiet_updChan_same s c _ rfl

theorem quiet_supplyWaitExpiry : Quiet s (supplyWaitExpiry c s) := by
  unfold supplyWaitExpiry
  split
  next h =>
    refine (quiet_updChan_same s c _ rfl).trans (quiet_enterIdentifying ?_)
    rw [seqState_updChan, if_pos rfl]
    exact supplyWaiting_powering h
  next => exact .refl s

theorem answers_identitySample (nibble : BitVec 4) : Answers s (identitySample c nibble s) := by
  unfold identitySample State.acceptNibble State.identityRead
  split
  · exact (quiet_updChan_same s c _ rfl).answers
  · split
    · split
      · split
        · exact (rough_updChan s c _).settle
        · refine ((quiet_updSeq s c _ ?_).trans (quiet_handWidthOp _ c 1)).answers
          rfl
      · refine ((quiet_updSeq s c _ ?_).trans (quiet_updDs _ c _)).answers
        rfl
    · split
      · exact (quiet_updChan_same s c _ rfl).answers
      · exact Rough.settle ⟨rfl, rfl, rfl, id⟩
  · exact .refl s
  · exact .refl s

theorem rough_finishUntested (s : State) (c : Chan) : Rough s (s.finishUntested c) := by
  rw [finishUntested_eq]; exact ⟨rfl, rfl, rfl, id⟩

theorem rough_endTesting (s : State) (c : Chan) : Rough s (s.endTesting c) := by
  rw [endTesting_eq]; exact ⟨rfl, rfl, rfl, id⟩

theorem rough_selectOn (v : BitVec 16) (viaAlias : Bool) (w : Width) (profile : Option (Nat × Profile)) (test : Bool) :
    Rough s (s.selectOn c v viaAlias w profile test) := by
  rw [selectOn_eq]
  split
  · exact ⟨rfl, rfl, rfl, id⟩
  · dsimp only
    split
    · exact (rough_updChan s c _).trans ((rough_updChan _ c _).trans (rough_requestSlot _ c))
    · exact (rough_updChan s c _).trans (rough_finishUntested _ c)

theorem rough_selectChannel : Rough s (s.selectChannel c) := by
  unfold State.selectChannel
  split
  · exact rough_selectOn ..
  · exact .refl s

theorem rough_selectUnread : Rough s (s.selectUnread c) := by
  unfold State.selectUnread
  split
  · exact rough_selectOn ..
  · exact .refl s

theorem answers_judge (hx : s.seqState c = .identifying) (r1 r2 : Block) : Answers s (s.judge c r1 r2) := by
  rw [judge_eq]
  split
  · exact Rough.settle ⟨rfl, rfl, rfl, id⟩
  next w _ =>
    split
    · exact (quiet_updChan s c (Channel.judged w) (.of_isTesting (by rw [hx]; rfl) rfl)).answers
    · exact Rough.settle ((rough_updChan s c _).trans rough_selectChannel)

theorem answers_widthCheckOpComplete (ho : Ordered s) (data : Block) : Answers s (widthCheckOpComplete c data s) := by
  have hhead : Keeps False s (s.completeHead c) := keeps_completeHead s c
  have ho' := hhead.ordered ho
  unfold widthCheckOpComplete State.widthStep
  split
  · refine (quiet_completeHead s c).hush.then ?_
    have next (x : State) (ident : Ident) (n : Nat) :
        Answers x ((x.updSeq c fun q => { q with ident := ident }).handWidthOp c n) :=
      ((quiet_updSeq x c (fun q => { q with ident := ident }) rfl).trans (quiet_handWidthOp _ c n)).answers
    split
    · exact next ..
    · exact next ..
    · exact next ..
    case h_4 r hi => exact answers_judge ((ho'.chans c).ident (by rw [hi]; nofun)) r data
    · exact .refl _
  · exact (quiet_completeHead s c).answers
  · exact .refl s

theorem rough_answerClosing (fuel : Nat) (s : State) : Rough s (State.answerClosing fuel s c) := by
  induction fuel generalizing s with
  | zero => exact .refl s
  | succ fuel ih =>
    rw [State.answerClosing]
    split
    · exact ⟨rfl, rfl, rfl, id⟩
    · split
      · exact (rough_updChan s c _).trans (ih _)
      · split
        · exact .refl s
        · exact rough_updChan s c _

theorem rough_enterClosing (why : Reason) : Rough s (s.enterClosing c why) := by
  rw [enterClosing_eq]
  exact Rough.trans (u := (((s.updChan c (Channel.closing why)).updBoard (·.took .failed)).dropOps c fun _ => true)) 
    ⟨rfl, rfl, rfl, id⟩ (rough_answerClosing _ _)

theorem answers_lose (why : Reason) : Answers s (s.lose c why) := by
  unfold State.lose
  split
  · exact Rough.settle ⟨rfl, rfl, rfl, id⟩
  · exact Rough.settle ⟨rfl, rfl, rfl, id⟩
  · exact Rough.settle ⟨rfl, rfl, rfl, id⟩
  · rw [abandonSweep_eq, failChannel_eq]
    refine Rough.settle (Rough.trans ((rough_updChan s c Channel.abandoned).trans (rough_releaseSlot _ c)) ?_)
    exact ⟨rfl, rfl, rfl, id⟩
  · exact Rough.settle ⟨rfl, rfl, rfl, id⟩
  · exact Rough.settle ⟨rfl, rfl, rfl, id⟩
  · exact Rough.settle (rough_enterClosing why)
  · exact Rough.settle (rough_enterClosing why)
  all_goals exact .refl s

theorem answers_supplyGoodFall : Answers s (supplyGoodFall c s) := by
  unfold supplyGoodFall
  split
  · exact (quiet_updChan_same s c _ rfl).hush.then (answers_lose _)
  · exact .refl s

theorem answers_noResponse : Answers s (noResponse c s) := by
  unfold noResponse
  split
  · exact (quiet_updDs s c _).hush.then (answers_lose _)
  · exact .refl s

theorem answers_analysisComplete : Answers s (analysisComplete c s) := by
  unfold analysisComplete State.afterAnalysis
  split
  next a ha =>
    split
    next h =>
      dsimp only
      split
      · exact Rough.settle ((rough_updChan s c _).trans (rough_endTesting _ c))
      · simp only [State.setAnalyser, State.updSeq, updChan_updChan]
        refine ((quiet_updChan_same s c _ ?_).trans (quiet_requestSlot ?_)).answers
        · rfl
        · rw [seqState_updChan, if_pos rfl]
          show (s.seqState c).isTesting = true
          rw [h.1]; rfl
    next => exact .refl s
  next => exact .refl s

theorem answers_expireBudget (ho : Ordered s) : Answers s (s.expireBudget c) := by
  unfold State.expireBudget
  split
  · exact Rough.settle ⟨rfl, rfl, rfl, id⟩
  · exact Rough.settle ⟨rfl, rfl, rfl, id⟩
  · exact Rough.settle rough_selectUnread
  · exact Rough.settle (Rough.trans (u := s.departQueue c) ⟨rfl, rfl, rfl, id⟩ (rough_endTesting _ c))
  next hx => exact (quiet_truncate ho hx _ _).answers
  · exact (quiet_updChan_same s c _ rfl).answers
  all_goals exact .refl s

theorem answers_deliverExpiry (ho : Ordered s) : Answers s (s.deliverExpiry c) := by
  unfold State.deliverExpiry
  split
  · have htimer : Keeps False s (s.updSeq c fun q => { q with timer := .expired }) := keeps_clock s c _ fun _ => rfl
    exact (quiet_updChan_same s c _ rfl).hush.then (answers_expireBudget (htimer.ordered ho))
  all_goals exact .refl s

/-! ### The request ports -/

theorem quiet_carryWaitingReport (s : State) (c : Chan) : Quiet s (s.carryWaitingReport c) := by
  unfold State.carryWaitingReport
  split
  next w hw =>
    split
    · obtain ⟨hwrite, hboard, hstrap, hpending, hstate⟩ := carryReportBlock_frame s w
      exact ⟨hstrap, by rw [hboard], by rw [hboard], hpending, by rw [hwrite, hw]; rfl, fun d => by rw [hstate]; exact .rfl' _⟩
    · exact .refl s
  next => exact .refl s

theorem quiet_requestLeaves (s : State) (c : Chan) : Quiet s (s.requestLeaves c) := by
  rw [requestLeaves_eq]
  exact Quiet.trans (u := leaves s c) (quiet_updPort s c _) (quiet_carryWaitingReport _ c)

theorem quiet_storeReport (s : State) (c : Chan) : Quiet s (s.storeReport c) := by
  unfold State.storeReport State.storeWrite
  split
  next w hw =>
    split
    · split
      · exact ⟨rfl, rfl, rfl, rfl, by rw [hw]; rfl, fun _ => .rfl' _⟩
      all_goals exact .refl s
    · exact .refl s
  next => exact .refl s

theorem quiet_serveBlock (c : Chan) (r : Request) (i : Nat) (s : State) : Quiet s (s.serveBlock c r i) := by
  unfold State.serveBlock State.serveShadow State.accessShadow State.addSlot State.handOver
  dsimp only
  split
  · exact (quiet_updDs s c _).trans (quiet_updPort _ c _)
  · exact (quiet_updDs s c _).trans (quiet_updPort _ c _)
  · refine (quiet_storeReport s c).trans ?_
    split
    · refine Quiet.trans (u := { s.storeReport c with shadow := { (s.storeReport c).shadow with
        store := shadowWriteBlock (s.storeReport c).shadow.store _ _ _ } }) ?_ (quiet_updPort _ c _)
      exact ⟨rfl, rfl, rfl, rfl, rfl, fun _ => .rfl' _⟩
    · exact quiet_updPort _ c _
  · exact (quiet_updPort s c _).trans (quiet_updPort _ c _)

theorem quiet_beginService (s : State) (c : Chan) (r : Request) : Quiet s (s.beginService c r) := by
  have fold (l : List Nat) : ∀ x : State, Quiet x (l.foldl (fun x i => x.serveBlock c r i) x) := by
    induction l with
    | nil => exact .refl
    | cons i l ih => exact fun x => (quiet_serveBlock c r i x).trans (ih _)
  exact (quiet_updPort s c _).trans (fold _ _)

theorem quiet_serviceHead (s : State) (c : Chan) (r : Request) : Quiet s (s.serviceHead c r) := by
  unfold State.serviceHead
  split
  · exact quiet_beginService s c r
  · exact .refl s

theorem quiet_formResponse (s : State) (c : Chan) (r : Request) : Quiet s (s.formResponse c r) := by
  unfold State.formResponse
  exact quiet_updPort s c _

/-- A retest leaves its channel IDENTIFYING. -/
theorem hush_beginRetest (s : State) (c : Chan) : Hush s (s.beginRetest c) := by
  rw [beginRetest_eq]
  refine Rough.settle_testing (c := c) ⟨rfl, rfl, rfl, id⟩ ?_
  rw [seqState_updChan, if_pos rfl]
  rfl

theorem hush_serveQueue (fuel : Nat) (s : State) : Hush s (State.serveQueue fuel s c) := by
  induction fuel generalizing s with
  | zero => exact .refl s
  | succ fuel ih =>
    rw [State.serveQueue]
    split
    · split
      · split
        · exact hush_beginRetest s c
        · exact .refl s
      next r _ _ =>
        have hhead := (quiet_serviceHead s c r).hush
        dsimp only
        split
        · split
          · exact (hhead.trans (quiet_requestLeaves _ c).hush).trans (ih _)
          · exact hhead.trans (quiet_formResponse _ c r).hush
        · exact hhead
    · exact .refl s

theorem hush_pump (s : State) (c : Chan) : Hush s (s.pump c) := hush_serveQueue _ s

/-- A start leaves READY. -/
theorem hush_maybeStart {f : Writer → Writer} (hf : (f s.writer).write = s.writer.write) :
    Hush s (s.updWriter f).maybeStart := by
  obtain ⟨hboard, -, hstate⟩ := maybeStart_frame (s.updWriter f)
  refine ⟨fun hs => ⟨maybeStart_writerLaw fun w hw => hs.writer w (hf.symm.trans hw), maybeStart_startLaw _, ?_⟩, ?_⟩
  · refine ⟨by rw [hboard]; exact hs.ready.1, fun hall => ?_⟩
    rw [hboard]
    refine hs.ready.2 (List.all_eq_true.mpr fun d hd => ?_)
    have := List.all_eq_true.mp hall d hd
    rwa [hstate, seqState_updWriter] at this
  · rw [hboard]; rfl

theorem hush_publish (s : State) : Hush s s.publish := by
  unfold State.publish
  split
  · exact hush_maybeStart rfl
  · exact .refl s

theorem hush_retestEscape (s : State) (c : Chan) : Hush s (s.retestEscape c) := by
  unfold State.retestEscape
  split
  next h =>
    refine Hush.trans ?_ (hush_pump _ c)
    have hdrain : Quiet s (s.setSeqState c .draining) := by
      refine quiet_updChan s c (fun ch => { ch with seq := { ch.seq with state := .draining } }) ?_
      rw [h]
      have hclass : SameClass .opened .draining := ⟨rfl, by decide, rfl, by decide⟩
      exact hclass
    exact (hdrain.trans (quiet_updPort _ c _)).hush
  next => exact .refl s

theorem hush_takeEscape (s : State) (w : BitVec 64) : Hush s (s.takeEscape w) := by
  unfold State.takeEscape
  split
  · exact hush_publish s
  · split
    · exact hush_retestEscape s _
    · exact .refl s
  · exact (Quiet.hush ⟨rfl, rfl, rfl, rfl, rfl, fun _ => .rfl' _⟩)
  · exact .refl s

theorem hush_detect (s : State) (c : Chan) (r : Request) : Hush s (s.detect c r) := by
  unfold State.detect
  split
  · dsimp only
    split
    · exact (quiet_updPort s c _).hush
    · exact (quiet_updPort s c _).hush.trans (hush_takeEscape _ _)
  · exact .refl s

theorem hush_requestArrival (p : Chan) (header : Vector Byte 5) (data : List Block) (begun : Bool) (s : State) :
    Hush s (requestArrival p header data begun s) := by
  unfold requestArrival State.judgeArrival State.discard State.accept
  split
  · exact .refl s
  · refine Hush.trans (u := s.updPort p fun q => { q.noteBegun begun with credit := q.credit - 1 })
      (quiet_updPort s p _).hush ?_
    dsimp only
    split
    · split
      · split
        · exact (quiet_updPort _ p _).hush
        · exact (quiet_updPort _ p _).hush.trans ((hush_detect _ p _).trans (hush_pump _ p))
      · exact (quiet_updPort _ p _).hush
    · exact (quiet_updPort _ p _).hush

theorem hush_portBlockComplete (p : Chan) (data : Block) (begun : Bool) (s : State) :
    Hush s (portBlockComplete p data begun s) := by
  unfold portBlockComplete
  split
  · exact .refl s
  · split
    · exact ((quiet_completeHead s p).trans (quiet_updPort _ p _)).hush.trans (hush_pump _ p)
    · exact .refl s

theorem answers_messageSent (p : Chan) (s : State) : Answers s (messageSent p s) := by
  unfold messageSent State.readLeaves
  split
  · exact .refl s
  next m rest _ =>
    dsimp only
    split
    · refine Hush.then (u := s.updPort p fun q => { q with outbound := rest, headBegun := false })
        (quiet_updPort s p _).hush ?_
      split
      · exact Rough.settle ((rough_updChan _ p _).trans (rough_answerClosing _ _))
      · exact ((quiet_requestLeaves _ p).hush.trans (hush_pump _ p)).answers
    · exact (quiet_updPort s p _).answers

/-! ### The Report Writer's command -/

/-- The next block of the write in progress is handed over. -/
theorem quiet_handReportBlock {w : Write} (hw : s.writer.write.map Write.chan = some w.chan) :
    Quiet s (s.handReportBlock w) := by
  obtain ⟨hwrite, hboard, hstrap, hpending, hstate⟩ := handReportBlock_frame s w
  exact ⟨hstrap, by rw [hboard], by rw [hboard], hpending, by rw [hwrite, hw],
    fun d => by rw [hstate]; exact .rfl' _⟩

theorem answers_nextReportBlock {w : Write} (hw : s.writer.write.map Write.chan = some w.chan) : Answers s (s.nextReportBlock w) := by
  unfold State.nextReportBlock
  split
  · exact (Quiet.answers (quiet_handReportBlock hw))
  · obtain ⟨hnone, hboard, hstrap⟩ := endWrite_frame s w
    exact Rough.settle ⟨hstrap, by rw [hboard], by rw [hboard], fun h => absurd hnone h⟩

theorem answers_reportOpComplete (s : State) (c : Chan) : Answers s (s.reportOpComplete c) := by
  have hhead := quiet_completeHead s c
  unfold State.reportOpComplete
  split
  · split
    next w hw =>
      split
      · exact hhead.hush.then (answers_nextReportBlock (hhead.write.trans (by rw [hw]; rfl)))
      · exact hhead.answers
    next => exact hhead.answers
  · exact hhead.answers
  · exact .refl s

theorem answers_reportBlockComplete (c : Chan) (s : State) : Answers s (reportBlockComplete c s) := by
  unfold reportBlockComplete
  split
  next w hw =>
    split
    next h =>
      have hstore := quiet_storeReport s c
      exact hstore.hush.then (answers_nextReportBlock (hstore.write.trans (by rw [hw]; rfl)))
    next => exact answers_reportOpComplete s c
  next => exact answers_reportOpComplete s c

/-! ### The end of a load -/

/-- An operation at the end of a load: what is settled stays so, and READY rises only then. -/
structure Rise (s t : State) : Prop where
  poised : Poised s → Poised t
  stays : s.board.ready = true → t.board.ready = true
  rises : t.board.ready = true → s.board.ready = true ∨ t.allSettled = true
  settled : s.allSettled = true → t.allSettled = true

theorem Rise.refl (s : State) : Rise s s := ⟨id, id, .inl, id⟩

theorem Rise.trans (h : Rise s u) (h' : Rise u t) : Rise s t :=
  ⟨h'.poised ∘ h.poised, h'.stays ∘ h.stays, fun ht => (h'.rises ht).elim (fun hu => (h.rises hu).imp id h'.settled) .inr,
    h'.settled ∘ h.settled⟩

theorem Rise.foldl {f : State → Chan → State} (hf : ∀ s c, Rise s (f s c)) (l : List Chan) (s : State) : Rise s (l.foldl f s) := by
  induction l generalizing s with
  | nil => exact .refl s
  | cons c l ih => exact (hf s c).trans (ih _)

theorem Rough.rise (h : Rough s t) (hs : s.allSettled = true → t.allSettled = true) : Rise s t :=
  ⟨h.poised, h.ready.trans, fun ht => .inl (h.ready.symm.trans ht), hs⟩

/-- While a channel is not settled no operation can lose what is. -/
theorem Rough.rise_of_unsettled (h : Rough s t) (hx : (s.seqState c).settled = false) : Rise s t := by
  refine h.rise fun hall => ?_
  have := List.all_eq_true.mp hall c ((by decide : ∀ c : Chan, c ∈ allChans) c)
  rw [hx] at this
  cases this

theorem rise_settle (s : State) : Rise s s.settle := by
  have h := (Rough.refl s).settle
  refine ⟨fun hs => (settle_reporting hs).poised, h.stays, h.rises, fun hall => List.all_eq_true.mpr fun d hd => ?_⟩
  have hd := List.all_eq_true.mp hall d hd
  obtain ⟨-, -, -, hchan⟩ := bystander_settle s
  obtain ⟨-, -, -, -, -, -, -, hopens, -, -⟩ := hchan d
  rcases hopens with ⟨hx, -⟩ | ⟨-, hy, -⟩
  · unfold State.seqState at hd ⊢
    rwa [hx]
  · unfold State.seqState
    rw [hy]; rfl

theorem Rough.rise_settle (h : Rough s t) (hx : (s.seqState c).settled = false) : Rise s t.settle :=
  (h.rise_of_unsettled hx).trans (Machine.rise_settle t)

theorem rise_updSeq (s : State) (c : Chan) (f : Sequencer → Sequencer) (h : (f (s.chan c).seq).state = s.seqState c) :
    Rise s (s.updSeq c f) := by
  refine (quiet_updSeq s c f h).rough.rise fun hall => List.all_eq_true.mpr fun d hd => ?_
  have hd := List.all_eq_true.mp hall d hd
  unfold State.updSeq
  rw [seqState_updChan]
  split
  next hdc => subst hdc; exact (congrArg SeqState.settled h).trans hd
  next => exact hd

theorem rise_expireBudget (s : State) (c : Chan) : Rise s (s.expireBudget c) := by
  unfold State.expireBudget
  split
  next hx => exact Rough.rise_settle (c := c) ⟨rfl, rfl, rfl, id⟩ (by rw [hx]; rfl)
  next hx => exact Rough.rise_settle (c := c) ⟨rfl, rfl, rfl, id⟩ (by rw [hx]; rfl)
  next hx => exact Rough.rise_settle (c := c) rough_selectUnread (by rw [hx]; rfl)
  next hx =>
    refine Rough.rise_settle (c := c) ?_ (by rw [hx]; rfl)
    exact Rough.trans (u := s.departQueue c) ⟨rfl, rfl, rfl, id⟩ (rough_endTesting _ c)
  next hx =>
    refine Rough.rise_of_unsettled (c := c) ?_ (by rw [hx]; rfl)
    rw [truncateSweep_eq, State.updSeq, updChan_updChan]
    exact ((rough_updChan s c _).trans (rough_releaseSlot _ c)).trans (rough_updChan _ c _)
  next => exact rise_updSeq s c (fun q => { q with budgetExpired := true }) rfl
  all_goals exact .refl s

theorem rise_deliverExpiry (s : State) (c : Chan) : Rise s (s.deliverExpiry c) := by
  unfold State.deliverExpiry
  split
  · exact Rise.trans (u := s.updSeq c fun q => { q with timer := .expired }) (rise_updSeq s c _ rfl) (rise_expireBudget _ c)
  all_goals exact .refl s

theorem rise_selectIfWaiting (s : State) (c : Chan) : Rise s (s.selectIfWaiting c) := by
  unfold State.selectIfWaiting
  split
  next hx => exact rough_selectChannel.rise_of_unsettled (c := c) (by rw [hx]; rfl)
  next => exact .refl s

theorem answers_endLoad (s : State) (x : LoaderState) (k : Kept) (expired order : List Chan) :
    Answers s (s.endLoad x k expired order) := by
  have hload : Rise s (s.loaded (s.loader.finish x k) k.cap) := Rough.rise ⟨rfl, rfl, rfl, id⟩ id
  have hbudget (y : State) : Rise y y.settleBudgets :=
    .foldl (f := fun x c => x.updSeq c fun q => { q with timer := q.timer.settle y.settledBudget })
      (fun x c => rise_updSeq x c (fun q => { q with timer := q.timer.settle y.settledBudget }) rfl) _ y
  have hexpired := (hload.trans (hbudget _)).trans (Rise.foldl rise_deliverExpiry expired _)
  have hall := hexpired.trans (Rise.foldl rise_selectIfWaiting (order ++ allChans) _)
  have hend := hall.trans (rise_settle _)
  exact ⟨fun hs => settle_reporting (hall.poised hs.poised), hend.stays, hend.rises⟩

theorem quiet_updLoader (s : State) (f : Loader → Loader) : Quiet s (s.updLoader f) :=
  ⟨rfl, rfl, rfl, rfl, rfl, fun _ => .rfl' _⟩

theorem answers_descriptorByte (b : Byte) (order : List Chan) (s : State) : Answers s (descriptorByte b order s) := by
  unfold descriptorByte State.testHeader State.loadWithout
  split
  · refine Hush.then (u := s.updLoader fun l => { l with buffer := l.buffer ++ [b] }) (quiet_updLoader s _).hush ?_
    dsimp only
    split
    · exact answers_endLoad ..
    · split
      · exact answers_endLoad ..
      · split
        · exact (quiet_updLoader _ _).answers
        · exact .refl _
  · exact .refl s

theorem answers_descriptorCheck (order : List Chan) (s : State) : Answers s (descriptorCheck order s) := by
  unfold descriptorCheck State.loadWithout
  split
  · split
    · exact (quiet_updLoader s _).answers
    · exact answers_endLoad ..
  · exact .refl s

theorem answers_descriptorParse (expired order : List Chan) (s : State) : Answers s (descriptorParse expired order s) := by
  unfold descriptorParse
  split
  · exact answers_endLoad ..
  · exact .refl s

theorem answers_loadLimitExpiry (order : List Chan) (s : State) : Answers s (loadLimitExpiry order s) := by
  unfold loadLimitExpiry State.loadWithout
  split
  · exact answers_endLoad ..
  · exact .refl s

theorem quiet_statusReadComplete (status : Byte) (s : State) : Quiet s (statusReadComplete status s) := by
  unfold statusReadComplete
  split
  · split
    · exact quiet_updLoader s _
    · exact quiet_updLoader s _
  · exact .refl s

theorem quiet_statusPollExpiry (s : State) : Quiet s (statusPollExpiry s) := by
  unfold statusPollExpiry
  split
  · exact quiet_updLoader s _
  · exact .refl s

/-! ### Reset -/

/-- With no write, no publish, no READY and every channel in bring-up the laws hold. -/
theorem reporting_of_early (hw : s.writer.write = none) (hp : s.writer.pendingPublish = false)
    (hb : s.board.ready = false ∧ s.board.readyRaised = false) (hc : ∀ c, (s.seqState c).early) : Reporting s := by
  refine ⟨fun w h => by simp [hw] at h, fun _ _ => ⟨hp, fun ⟨c, hx⟩ => ?_⟩, by rw [hb.1, hb.2], fun hall => ?_⟩
  · have := hc c
    rw [hx] at this
    simp [SeqState.early] at this
  · have := List.all_eq_true.mp hall 0 (by decide)
    rcases hc 0 with h | h | h
    all_goals simp [h, SeqState.settled] at this

theorem reporting_resetAssertion (s : State) : Reporting (resetAssertion s) := by
  refine reporting_of_early rfl rfl ⟨rfl, rfl⟩ fun c => .inl ?_
  unfold State.seqState
  rw [resetAssertion_chan]; rfl

theorem answers_resetRelease (hl : HeldLaw s) (lanes : BitVec 8) : Answers s (resetRelease lanes s) := by
  by_cases hr : s.inReset = true
  · obtain ⟨hframe, hchan⟩ := resetRelease_eq lanes hr
    obtain ⟨hheld, -, -, -, -, hwriter, hboard⟩ := hl hr
    have hw : (resetRelease lanes s).writer = s.writer := by rw [hframe]; rfl
    have hb : (resetRelease lanes s).board = s.board := by rw [hframe]; rfl
    refine ⟨fun _ => reporting_of_early ?_ ?_ ?_ fun c => ?_, fun h => ?_, fun h => ?_⟩
    · rw [hw, hwriter]
    · rw [hw, hwriter]
    · rw [hb, hboard]; exact ⟨rfl, rfl⟩
    · unfold State.seqState
      rw [hchan, hheld c]
      exact released_early lanes _
    · rwa [hb]
    · rw [hb] at h; exact .inl h
  · unfold resetRelease
    rw [if_neg hr]
    exact .refl s

/-! ### Every command -/

/-- Every command but reset assertion keeps the laws of the report and of READY. -/
theorem exec_answers (i : Instr) (hs : SequencerLaw s) (hi : i ≠ .resetAssertion) :
    ∃ t, exec i s = .next t ∧ Answers s t := by
  obtain ⟨hheld, ho⟩ := (sequencerLaw_iff s).mp hs
  cases i with
  | resetAssertion => exact absurd rfl hi
  | resetRelease lanes => exact ⟨_, rfl, answers_resetRelease hheld lanes⟩
  | supplyGoodRise c => exact ⟨_, rfl, quiet_supplyGoodRise.answers⟩
  | supplyGoodFall c => exact ⟨_, rfl, answers_supplyGoodFall⟩
  | supplyWaitExpiry c => exact ⟨_, rfl, quiet_supplyWaitExpiry.answers⟩
  | identitySample c nibble => exact ⟨_, rfl, answers_identitySample nibble⟩
  | widthCheckOpComplete c data => exact ⟨_, rfl, answers_widthCheckOpComplete ho data⟩
  | statusReadComplete status => exact ⟨_, rfl, (quiet_statusReadComplete status s).answers⟩
  | statusPollExpiry => exact ⟨_, rfl, (quiet_statusPollExpiry s).answers⟩
  | descriptorByte b order => exact ⟨_, rfl, answers_descriptorByte b order s⟩
  | descriptorCheck order => exact ⟨_, rfl, answers_descriptorCheck order s⟩
  | descriptorParse expired order => exact ⟨_, rfl, answers_descriptorParse expired order s⟩
  | loadLimitExpiry order => exact ⟨_, rfl, answers_loadLimitExpiry order s⟩
  | budgetExpiry c => exact ⟨_, rfl, answers_deliverExpiry ho⟩
  | sweepOpsComplete c reads => exact ⟨_, rfl, (quiet_sweepOpsComplete ho reads).answers⟩
  | pauseExpiry c => exact ⟨_, rfl, (quiet_pauseExpiry ho).answers⟩
  | shadowClaim c => exact ⟨_, rfl, quiet_shadowClaim.answers⟩
  | analysisComplete c => exact ⟨_, rfl, answers_analysisComplete⟩
  | noResponse c => exact ⟨_, rfl, answers_noResponse⟩
  | requestArrival p header data begun => exact ⟨_, rfl, (hush_requestArrival p header data begun s).answers⟩
  | portBlockComplete p data begun => exact ⟨_, rfl, (hush_portBlockComplete p data begun s).answers⟩
  | messageSent p => exact ⟨_, rfl, answers_messageSent p s⟩
  | reportBlockComplete c => exact ⟨_, rfl, answers_reportBlockComplete c s⟩

end

/-- What a step does to the report and to READY. -/
theorem step_reports {s t : State} (hs : SequencerLaw s) (h : step s = .next t) (hr : Reporting s) :
    Reporting t ∧ (s.board.ready = true → s.pending.head? ≠ some .resetAssertion → t.board.ready = true) ∧
      (t.board.ready = true → s.board.ready = true ∨ t.allSettled = true) := by
  unfold step at h
  split at h
  next => obtain rfl := Host.Outcome.next.inj h; exact ⟨hr, fun hready _ => hready, .inl⟩
  next i rest hq =>
    by_cases hi : i = .resetAssertion
    · subst hi
      obtain rfl := Host.Outcome.next.inj h
      exact ⟨reporting_resetAssertion _, fun _ hne => absurd (by rw [hq]; rfl) hne, nofun⟩
    · obtain ⟨t', ht', hanswers⟩ := exec_answers (s := { s with pending := rest }) i hs hi
      obtain rfl := Host.Outcome.next.inj (h.symm.trans ht')
      exact ⟨hanswers.laws ⟨hr.writer, hr.start, hr.ready⟩, fun hready _ => hanswers.stays hready, hanswers.rises⟩

/-- Settles O58: the detectors' and refresh laws are kept channel by channel by the moves, the report's and READY's by every
command as a whole. -/
theorem portRefreshAndReadyLawsKept : Obligations.PortRefreshAndReadyLawsKept := by
  refine ⟨allSettled_iff, carriesReport_iff, isLiveSweep_iff, fun s t hs hd hf hw hst hre h => ?_⟩
  obtain ⟨⟨hwriter, hstart, hready⟩, hstays, hrises⟩ := step_reports hs h ⟨hw, hst, hre⟩
  refine ⟨?_, ?_, hwriter, hstart, hready, hstays, hrises⟩
  · obtain rfl | ⟨i, rest, -, hstep⟩ := step_cases h
    · exact hd
    · exact hstep.chans (P := fun strap ch => DetectorOk strap ch.seq.state ch.port) hs (fun _ _ hn => absurd rfl hn)
        (fun e a b _ hm ho ha => hm.detectorOk ho ha) hd
  · obtain rfl | ⟨i, rest, -, hstep⟩ := step_cases h
    · exact hf
    · exact (refreshLaw_iff t).mpr (hstep.chans (P := fun _ ch => ch.RefreshOk) hs (fun _ _ => ⟨rfl, nofun⟩)
        (fun e a b hsteady hm ho ha => hm.refreshOk ho (hsteady hf) ha) ((refreshLaw_iff s).mp hf))

end Sys2Proof.Machine
end

section
/-! The width judgement, what a selection takes from the descriptor, the layout of a march element, the walk and the escape detector
(O11, O14, O18, O25, O45). -/

namespace Sys2Proof.Machine

/-! ### The width judgement (R93) -/

theorem eq_eightWords_iff (r : Block) (w : BitVec 64) :
    r = eightWords w ↔ ∀ j < 8, ∀ L < 64, r.getLsbD (64 * j + L) = w.getLsbD L := by
  refine ⟨fun h j hj L hL => ?_, fun h => BitVec.eq_of_getLsbD_eq fun i hi => ?_⟩
  · rw [h, getLsbD_eightWords w (by omega), Nat.mul_add_mod, Nat.mod_eq_of_lt hL]
  · rw [getLsbD_eightWords w hi, ← h (i / 64) (by omega) (i % 64) (by omega), Nat.div_add_mod]

/-- Two fields of `n` bits are equal exactly when bit by bit. -/
theorem extractLsb'_eq_iff {n m : Nat} (a : BitVec n) (b : BitVec m) (i j k : Nat) :
    a.extractLsb' i k = b.extractLsb' j k ↔ ∀ L < k, a.getLsbD (i + L) = b.getLsbD (j + L) := by
  refine ⟨fun h L hL => ?_, fun h => BitVec.eq_of_getLsbD_eq fun L hL => ?_⟩
  · have := congrArg (fun x => BitVec.getLsbD x L) h
    simpa [BitVec.getLsbD_extractLsb', hL] using this
  · simp [hL, h L hL]

theorem eq_allOnes_iff {n : Nat} (a : BitVec n) : a = BitVec.allOnes n ↔ ∀ L < n, a.getLsbD L = true := by
  refine ⟨fun h L hL => by simp [h, hL], fun h => BitVec.eq_of_getLsbD_eq fun L hL => by simp [h L hL, hL]⟩

theorem halfMatch_iff (pattern : BitVec 64) (r : Block) :
    halfMatch pattern r = true ↔
      (∀ j < 8, ∀ L < 32, r.getLsbD (64 * j + L) = pattern.getLsbD L) ∧
      ∀ j < 8, ∀ L, 32 ≤ L → L < 64 → r.getLsbD (64 * j + L) = true := by
  have hword (j L : Nat) (hL : L < 64) : (blockWord .full r j).getLsbD L = r.getLsbD (64 * j + L) := by
    simp [blockWord, hL]
  have low (j : Nat) : (blockWord .full r j).extractLsb' 0 32 = pattern.extractLsb' 0 32 ↔
      ∀ L < 32, r.getLsbD (64 * j + L) = pattern.getLsbD L := by
    rw [extractLsb'_eq_iff]
    refine forall₂_congr fun L hL => ?_
    rw [Nat.zero_add, hword j L (by omega)]
  have high (j : Nat) : (blockWord .full r j).extractLsb' 32 32 = BitVec.allOnes 32 ↔
      ∀ L, 32 ≤ L → L < 64 → r.getLsbD (64 * j + L) = true := by
    rw [eq_allOnes_iff]
    refine ⟨fun h L h1 h2 => ?_, fun h L hL => ?_⟩
    · have := h (L - 32) (by omega)
      rw [BitVec.getLsbD_extractLsb', Nat.add_sub_cancel' h1, hword j L h2] at this
      simpa using And.right (Bool.and_eq_true_iff.mp this)
    · rw [BitVec.getLsbD_extractLsb', hword j _ (by omega), h _ (by omega) (by omega)]
      simp [hL]
  simp only [halfMatch, List.all_eq_true, List.mem_range, Bool.and_eq_true, beq_iff_eq, low, high, forall_and]

/-- Settles O11. No data fits both patterns: lane 33 of the first read is 0 at full width and 1 at half width. -/
theorem widthJudgement : Obligations.WidthJudgement := by
  intro r1 r2 fits full half
  have hfull : full ↔ r1 = eightWords Config.widthPattern ∧ r2 = eightWords Config.widthComplement := by
    rw [eq_eightWords_iff, eq_eightWords_iff]
    exact ⟨fun h => ⟨fun j hj L hL => (h j hj L hL).1, fun j hj L hL => (h j hj L hL).2⟩,
      fun h j hj L hL => ⟨h.1 j hj L hL, h.2 j hj L hL⟩⟩
  have hhalf : half ↔ (halfMatch Config.widthPattern r1 && halfMatch Config.widthComplement r2) = true := by
    rw [Bool.and_eq_true, halfMatch_iff, halfMatch_iff]
    exact ⟨fun h => ⟨⟨fun j hj L hL => (h.1 j hj L hL).1, fun j hj L h1 h2 => (h.2 j hj L h1 h2).1⟩,
        fun j hj L hL => (h.1 j hj L hL).2, fun j hj L h1 h2 => (h.2 j hj L h1 h2).2⟩,
      fun h => ⟨fun j hj L hL => ⟨h.1.1 j hj L hL, h.2.1 j hj L hL⟩,
        fun j hj L h1 h2 => ⟨h.1.2 j hj L h1 h2, h.2.2 j hj L h1 h2⟩⟩⟩
  have hexcl (h : half) : ¬full := fun hf => by
    have h0 := (hf 0 (by decide) 33 (by decide)).1
    rw [(h.2 0 (by decide) 33 (by decide) (by decide)).1] at h0
    exact absurd h0 (by decide)
  unfold judgeWidth
  refine ⟨fun h => if_pos (hfull.mp h), fun h => ?_, fun hf hh => ?_⟩
  · rw [if_neg (mt hfull.mpr (hexcl h)), if_pos (hhalf.mp h)]
  · rw [if_neg (mt hfull.mpr hf), if_neg (mt hhalf.mpr hh)]

/-! ### What a selection takes from the descriptor (R95) -/

theorem hasDescriptor_iff (l : Loader) : l.hasDescriptor = true ↔ l.state = .valid ∨ l.state = .truncated := by
  simp [Loader.hasDescriptor]

/-- The identity that an override gives channel `c`. -/
def Override.aliasOf (c : Chan) : Override → Option (BitVec 16)
  | .aliasId d v => if d = c then some v else none
  | .skipTest _ => none

theorem aliasOf_eq_some_iff (c : Chan) (o : Override) (x : BitVec 16) : o.aliasOf c = some x ↔ o = .aliasId c x := by
  cases o with
  | aliasId d v =>
    simp only [Override.aliasOf]
    split
    next h => subst h; simp
    next h => simp [h]
  | skipTest d => simp [Override.aliasOf]

/-- The first element that a function takes. -/
theorem findSome?_eq_some_iff {α β : Type} (f : α → Option β) (l : List α) (x : β) :
    l.findSome? f = some x ↔
      ∃ i : Nat, (∃ a, l[i]? = some a ∧ f a = some x) ∧ ∀ j < i, ∀ a, l[j]? = some a → f a = none := by
  induction l with
  | nil => simp
  | cons a l ih =>
    rw [List.findSome?_cons]
    split
    next y hy =>
      refine ⟨fun h => ⟨0, ⟨a, rfl, hy.trans h⟩, nofun⟩, fun ⟨i, hi, hbefore⟩ => ?_⟩
      cases i with
      | zero =>
        obtain ⟨b, hb, hx⟩ := hi
        obtain rfl := Option.some.inj hb
        exact hy.symm.trans hx
      | succ i => exact absurd (hbefore 0 (Nat.succ_pos i) a rfl) (by simp [hy])
    next hnone =>
      rw [ih]
      refine ⟨fun ⟨i, hi, hbefore⟩ => ⟨i + 1, hi, fun j hj b hb => ?_⟩, fun ⟨i, hi, hbefore⟩ => ?_⟩
      · cases j with
        | zero => obtain rfl := Option.some.inj hb; exact hnone
        | succ j => exact hbefore j (by omega) b hb
      · cases i with
        | zero =>
          obtain ⟨b, hb, hx⟩ := hi
          obtain rfl := Option.some.inj hb
          simp [hnone] at hx
        | succ i => exact ⟨i, hi, fun j hj b hb => hbefore (j + 1) (by omega) b hb⟩

theorem aliasFor_eq_some_iff (l : Loader) (c : Chan) (x : BitVec 16) :
    l.aliasFor c = some x ↔
      (l.state = .valid ∨ l.state = .truncated) ∧
      ∃ i : Nat, l.kept.overrides[i]? = some (.aliasId c x) ∧
        ∀ j < i, ∀ y, l.kept.overrides[j]? ≠ some (.aliasId c y) := by
  rw [← hasDescriptor_iff]
  unfold Loader.aliasFor
  split
  next h =>
    rw [show l.kept.overrides.findSome? _ = l.kept.overrides.findSome? (Override.aliasOf c) from
      congrArg (List.findSome? · _) (funext fun o => by cases o <;> rfl), findSome?_eq_some_iff]
    simp only [h, true_and]
    refine exists_congr fun i => and_congr ?_ (forall₂_congr fun j hj => ?_)
    · simp [aliasOf_eq_some_iff]
    · simp only [Option.eq_none_iff_forall_ne_some, ne_eq, aliasOf_eq_some_iff]
      exact ⟨fun hn y hy => hn _ hy y rfl, fun hn a ha y hy => hn y (hy ▸ ha)⟩
  next h => simp [h]

theorem skips_iff (l : Loader) (c : Chan) :
    l.skips c = true ↔ (l.state = .valid ∨ l.state = .truncated) ∧ Override.skipTest c ∈ l.kept.overrides := by
  unfold Loader.skips
  rw [Bool.and_eq_true, hasDescriptor_iff, List.any_eq_true]
  refine and_congr_right fun _ => ⟨fun ⟨o, ho, h⟩ => ?_, fun h => ⟨_, h, by simp⟩⟩
  cases o with
  | aliasId => cases h
  | skipTest d => rwa [← show d = c by simpa using h]

/-- A profile of the identity at the part's level (R95). -/
def Profile.fits (v : BitVec 16) (p : Profile) : Prop := p.identity = v ∧ p.minLevel ≤ 2

theorem firstProfile_eq_some_iff (v : BitVec 16) (l : List Profile) (i k : Nat) (p : Profile) :
    firstProfile v i l = some (k, p) ↔
      i ≤ k ∧ l[k - i]? = some p ∧ p.fits v ∧ ∀ j < k - i, ∀ q, l[j]? = some q → ¬q.fits v := by
  induction l generalizing i with
  | nil => simp [firstProfile]
  | cons q l ih =>
    rw [firstProfile]
    split
    next h =>
      refine ⟨fun e => ?_, fun ⟨hle, hp, hfits, hbefore⟩ => ?_⟩
      · obtain ⟨rfl, rfl⟩ := Prod.mk.inj (Option.some.inj e)
        exact ⟨le_rfl, by simp, h, by simp⟩
      · by_cases hk : k = i
        · subst hk
          rw [Nat.sub_self] at hp
          rw [Option.some.inj hp]
        · exact absurd h (hbefore 0 (by omega) q rfl)
    next h =>
      rw [ih]
      refine ⟨fun ⟨hle, hp, hfits, hbefore⟩ => ⟨by omega, ?_, hfits, fun j hj x hx => ?_⟩,
        fun ⟨hle, hp, hfits, hbefore⟩ => ?_⟩
      · rw [show k - i = k - (i + 1) + 1 by omega]; exact hp
      · cases j with
        | zero => obtain rfl := Option.some.inj hx; exact h
        | succ j => exact hbefore j (by omega) x hx
      · have hk : k ≠ i := by
          rintro rfl
          rw [Nat.sub_self] at hp
          obtain rfl := Option.some.inj hp
          exact h hfits
        refine ⟨by omega, ?_, hfits, fun j hj x hx => hbefore (j + 1) (by omega) x hx⟩
        rwa [show k - i = k - (i + 1) + 1 by omega] at hp

/-- Settles O14. -/
theorem aliasAndProfileAreFirstKept : Obligations.AliasAndProfileAreFirstKept := by
  intro l c v
  refine ⟨skips_iff l c, aliasFor_eq_some_iff l c, fun k p => ?_⟩
  rw [← hasDescriptor_iff]
  unfold Loader.profileFor
  split
  next h =>
    rw [firstProfile_eq_some_iff]
    simp only [h, true_and, Nat.zero_le, Nat.sub_zero, Profile.fits, and_assoc]
  next h => simp [h]

/-! ### The layout of a march element (section 11.4) -/

def MarchOp.code : MarchOp → Nat
  | .w0 => 0
  | .w1 => 1
  | .r0 => 2
  | .r1 => 3

def Background.code : Background → Nat
  | .solid => 0
  | .checker => 1
  | .rowStripe => 2
  | .columnStripe => 3

theorem MarchOp.code_lt (o : MarchOp) : o.code < 4 := by cases o <;> decide

theorem Background.code_lt (b : Background) : b.code < 4 := by cases b <;> decide

theorem marchOpOfCode_code (o : MarchOp) : marchOpOfCode o.code = o := by cases o <;> rfl

theorem backgroundOfCode_code (b : Background) : backgroundOfCode b.code = b := by cases b <;> rfl

theorem u8_middle (before bytes rest : List Byte) {i : Nat} (hi : i < bytes.length) :
    u8 (before ++ bytes ++ rest) (before.length + i) = (bytes.getD i 0).toNat := by
  simp [u8, List.getD_eq_getElem?_getD, List.getElem?_append, hi]

/-- An element of three fields, the bytes of section 11.4 read as numbers. -/
theorem decodeElement_of_bytes {image : List Byte} {i : Nat} {o1 o2 o3 o4 : MarchOp} {down top : Bool} {count rep pause : Nat}
    {b : Background} (hcount : count < 8) (hrep : rep < 16)
    (h0 : u8 image i = o1.code + 4 * o2.code + 16 * o3.code + 64 * o4.code)
    (h1 : u8 image (i + 1) = count + 8 * (if down then 1 else 0) + 32 * b.code + 128 * (if top then 1 else 0))
    (h2 : u8 image (i + 2) = rep + 16 * pause) :
    decodeElement image i =
      { down := down, ops := [o1, o2, o3, o4], count := count, background := b, repeatCode := rep, pauseCode := pause } := by
  have e1 : u8 image i % 4 = o1.code := by have := o1.code_lt; omega
  have e2 : u8 image i / 4 % 4 = o2.code := by have := o1.code_lt; have := o2.code_lt; omega
  have e3 : u8 image i / 16 % 4 = o3.code := by
    have := o1.code_lt; have := o2.code_lt; have := o3.code_lt; omega
  have e4 : u8 image i / 64 % 4 = o4.code := by
    have := o1.code_lt; have := o2.code_lt; have := o3.code_lt; have := o4.code_lt; omega
  have hb := b.code_lt
  have ecount : u8 image (i + 1) % 8 = count := by rw [h1]; cases down <;> cases top <;> simp <;> omega
  have edown : u8 image (i + 1) / 8 % 4 = if down then 1 else 0 := by
    rw [h1]; cases down <;> cases top <;> simp <;> omega
  have eback : u8 image (i + 1) / 32 % 4 = b.code := by rw [h1]; cases down <;> cases top <;> simp <;> omega
  have erep : u8 image (i + 2) % 16 = rep := by omega
  have epause : u8 image (i + 2) / 16 = pause := by omega
  unfold decodeElement elementDirection elementOpCount
  rw [e1, e2, e3, e4, ecount, edown, eback, erep, epause, backgroundOfCode_code]
  simp only [List.map_cons, List.map_nil, marchOpOfCode_code]
  cases down <;> rfl

/-- Settles O18: every byte is below 256, so it is read back as the number that was laid out. -/
theorem elementRoundTrip : Obligations.ElementRoundTrip := by
  intro o1 o2 o3 o4 down top count rep pause b ignored before rest hcount hrep hpause opCode bgCode bytes
  have hop (o : MarchOp) : opCode o = o.code := by cases o <;> rfl
  have hbg : bgCode = b.code := by cases b <;> rfl
  have hlt := o1.code_lt
  have hlt2 := o2.code_lt
  have hlt3 := o3.code_lt
  have hlt4 := o4.code_lt
  have hblt := b.code_lt
  have hbyte (i : Nat) (hi : i < bytes.length) : u8 (before ++ bytes ++ rest) (before.length + i) = (bytes.getD i 0).toNat :=
    u8_middle before bytes rest hi
  refine decodeElement_of_bytes (top := top) hcount hrep ?_ ?_ ?_
  · refine (hbyte 0 (show 0 < 4 by decide)).trans ?_
    show (BitVec.ofNat 8 _).toNat = _
    rw [BitVec.toNat_ofNat, hop, hop, hop, hop]
    exact Nat.mod_eq_of_lt (by omega)
  · refine (hbyte 1 (show 1 < 4 by decide)).trans ?_
    show (BitVec.ofNat 8 _).toNat = _
    rw [BitVec.toNat_ofNat, hbg]
    exact Nat.mod_eq_of_lt (by cases down <;> cases top <;> simp <;> omega)
  · refine (hbyte 2 (show 2 < 4 by decide)).trans ?_
    show (BitVec.ofNat 8 _).toNat = _
    rw [BitVec.toNat_ofNat]
    exact Nat.mod_eq_of_lt (by omega)

/-! ### The walk (R22) -/

theorem elementAt_of_pos {march : List Element} {n : Nat} (h : 1 ≤ n) : elementAt march n = march[n - 1]? := by
  unfold elementAt
  rw [if_neg (by omega)]

theorem sweep_beginPass_eq {m : Sweep} {g : Geometry} {n pass : Nat} {e : Element} (hn : 1 ≤ n) (he : m.march[n - 1]? = some e) :
    m.beginPass g n pass = { m with
      element := n, pass := pass, passFailed := false, pause := none,
      row := if e.down = true then g.rows - 1 else 0, col := if e.down = true then g.blocksPerRow - 1 else 0 } := by
  unfold Sweep.beginPass
  rw [elementAt_of_pos hn, he]
  cases hd : e.down <;> simp [walkStart, hd]

/-- A place is its row and its column. -/
theorem place_injective {n r k r' k' : Nat} (hk : k < n) (hk' : k' < n) (h : r' * n + k' = r * n + k) : r' = r ∧ k' = k := by
  have hr : r' = r := by
    have h1 := congrArg (· / n) h
    have hpos : 0 < n := by omega
    simpa [Nat.mul_comm, Nat.mul_add_div hpos, Nat.div_eq_of_lt hk, Nat.div_eq_of_lt hk'] using h1
  subst hr
  exact ⟨rfl, by omega⟩

section
variable {g : Geometry} {r k r' k' : Nat}

theorem walkNext_up_iff (hr' : r' < g.rows) (hk : k < g.blocksPerRow) (hk' : k' < g.blocksPerRow) :
    walkNext g false r k = some (r', k') ↔ r' * g.blocksPerRow + k' = r * g.blocksPerRow + k + 1 := by
  simp only [walkNext, Bool.false_eq_true, if_false]
  split
  next h =>
    simp only [Option.some.injEq, Prod.mk.injEq]
    refine ⟨fun ⟨h1, h2⟩ => by rw [← h1, ← h2]; omega, fun e => ?_⟩
    obtain ⟨h1, h2⟩ := place_injective (k := k + 1) h hk' (by omega)
    exact ⟨h1.symm, h2.symm⟩
  next h =>
    have hrow : r * g.blocksPerRow + k + 1 = (r + 1) * g.blocksPerRow + 0 := by
      rw [Nat.succ_mul]; omega
    split
    next hlast =>
      simp only [Option.some.injEq, Prod.mk.injEq]
      refine ⟨fun ⟨h1, h2⟩ => by rw [← h1, ← h2, hrow], fun e => ?_⟩
      obtain ⟨h1, h2⟩ := place_injective (by omega) hk' (e.trans hrow)
      exact ⟨h1.symm, h2.symm⟩
    next hlast =>
      refine iff_of_false nofun fun e => ?_
      obtain ⟨h1, -⟩ := place_injective (by omega) hk' (e.trans hrow)
      omega

theorem walkNext_down_iff (hr' : r' < g.rows) (hk : k < g.blocksPerRow) (hk' : k' < g.blocksPerRow) :
    walkNext g true r' k' = some (r, k) ↔ r' * g.blocksPerRow + k' = r * g.blocksPerRow + k + 1 := by
  simp only [walkNext, if_true]
  split
  next h =>
    simp only [Option.some.injEq, Prod.mk.injEq]
    refine ⟨fun ⟨h1, h2⟩ => by rw [← h1, ← h2]; omega, fun e => ?_⟩
    obtain ⟨h1, h2⟩ := place_injective (k := k' - 1) (k' := k) (r := r') (r' := r) (by omega) hk (by omega)
    exact ⟨h1.symm, h2.symm⟩
  next h =>
    obtain rfl : k' = 0 := by omega
    split
    next hfirst =>
      obtain ⟨q, rfl⟩ : ∃ q, r' = q + 1 := ⟨r' - 1, by omega⟩
      have hrow : (q + 1) * g.blocksPerRow + 0 = q * g.blocksPerRow + (g.blocksPerRow - 1) + 1 := by
        rw [Nat.succ_mul]; omega
      simp only [Option.some.injEq, Prod.mk.injEq, Nat.add_sub_cancel]
      refine ⟨fun ⟨h1, h2⟩ => by rw [← h1, ← h2, hrow], fun e => ?_⟩
      obtain ⟨h1, h2⟩ := place_injective (k := g.blocksPerRow - 1) (k' := k) (r := q) (r' := r) (by omega) hk (by omega)
      exact ⟨h1.symm, h2.symm⟩
    next hfirst =>
      obtain rfl : r' = 0 := by omega
      exact iff_of_false nofun (by omega)

theorem walkNext_up_none_iff (hr : r < g.rows) (hk : k < g.blocksPerRow) :
    walkNext g false r k = none ↔ (r, k) = walkStart g true := by
  simp only [walkNext, walkStart, Bool.false_eq_true, if_false, if_true, Prod.mk.injEq]
  split
  · exact iff_of_false nofun (by omega)
  · split
    · exact iff_of_false nofun (by omega)
    · exact iff_of_true rfl (by omega)

theorem walkNext_down_none_iff : walkNext g true r k = none ↔ (r, k) = walkStart g false := by
  simp only [walkNext, walkStart, Bool.false_eq_true, if_false, if_true, Prod.mk.injEq]
  split
  · exact iff_of_false nofun (by omega)
  · split
    · exact iff_of_false nofun (by omega)
    · exact iff_of_true rfl (by omega)

end

/-- Settles O25: both directions step by one place in the row-major order. -/
theorem walkOrder : Obligations.WalkOrder := by
  refine ⟨fun g => ⟨rfl, rfl⟩, fun m g n pass e hn he => sweep_beginPass_eq hn he,
    fun g march bank e he => sweep_beginPass_eq le_rfl he, fun g r k r' k' hr hk hr' hk' => ?_⟩
  exact ⟨walkNext_up_iff hr' hk hk', (walkNext_down_iff hr' hk hk').trans (walkNext_up_iff hr' hk hk').symm,
    walkNext_up_none_iff hr hk, walkNext_down_none_iff⟩

/-! ### The escape detector (R147) -/

theorem isCandidate_iff (ch : Channel) (r : Request) : ch.isCandidate r = true ↔ r.lenCode = 0 ∧ ch.escapeBlock = some r.addr := by
  simp [Channel.isCandidate]

theorem escapeMarked_iff (w : BitVec 64) : escapeMarked w = true ↔ ∀ i, 16 ≤ i → i < 64 → w.getLsbD i = true := by
  unfold escapeMarked
  rw [beq_iff_eq, eq_allOnes_iff]
  refine ⟨fun h i h1 h2 => ?_, fun h L hL => ?_⟩
  · have := h (i - 16) (by omega)
    rw [BitVec.getLsbD_extractLsb', Nat.add_sub_cancel' h1] at this
    exact (Bool.and_eq_true_iff.mp this).2
  · rw [BitVec.getLsbD_extractLsb', h _ (by omega) (by omega)]
    simp [hL]

theorem isStepWord_iff (w : BitVec 64) (k : Nat) : isStepWord w k = true ↔ escapeMarked w = true ∧ w.toNat % 65536 = k := by
  simp [isStepWord, BitVec.extractLsb'_toNat]

/-- The step of a detector's state, 0 in IDLE. -/
def Detector.stepNumber : Detector → Nat
  | .idle => 0
  | .step1 => 1
  | .step2 => 2
  | .step3 => 3
  | .step4 => 4

/-- The word that the detector waits for moves it on; step word 1 begins again; any other word ends the sequence. -/
theorem advance_cases (d : Detector) (w : BitVec 64) :
    (1 ≤ d.stepNumber → d.stepNumber < 4 → isStepWord w (d.stepNumber + 1) = true →
      (d.advance w).stepNumber = d.stepNumber + 1) ∧
    (¬(1 ≤ d.stepNumber ∧ d.stepNumber < 4 ∧ isStepWord w (d.stepNumber + 1) = true) →
      d.advance w = if isStepWord w 1 then .step1 else .idle) := by
  cases d with
  | idle => exact ⟨nofun, fun _ => rfl⟩
  | step4 => exact ⟨fun _ h => absurd h (by decide), fun _ => rfl⟩
  | step1 =>
    refine ⟨fun _ _ (h : isStepWord w 2 = true) => ?_, fun h => if_neg fun hw => h ⟨by decide, by decide, hw⟩⟩
    rw [Detector.advance, if_pos h]
    rfl
  | step2 =>
    refine ⟨fun _ _ (h : isStepWord w 3 = true) => ?_, fun h => if_neg fun hw => h ⟨by decide, by decide, hw⟩⟩
    rw [Detector.advance, if_pos h]
    rfl
  | step3 =>
    refine ⟨fun _ _ (h : isStepWord w 4 = true) => ?_, fun h => if_neg fun hw => h ⟨by decide, by decide, hw⟩⟩
    rw [Detector.advance, if_pos h]
    rfl

/-- Settles O45. -/
theorem detectorTable : Obligations.DetectorTable := by
  refine ⟨isCandidate_iff, fun r i hi => ?_, escapeMarked_iff, ?_⟩
  · unfold escapeWord Request.block
    rw [BitVec.getLsbD_extractLsb', List.head?_eq_getElem?]
    simp [hi]
  · intro d candidate w stepOf marked stepWord
    have hmarked : escapeMarked w = true ↔ marked := escapeMarked_iff w
    have hword (k : Nat) : isStepWord w k = true ↔ stepWord k := (isStepWord_iff w k).trans (and_congr_left fun _ => hmarked)
    have hstep : stepOf d = d.stepNumber := by cases d <;> rfl
    obtain ⟨hon, hback⟩ := advance_cases d w
    unfold Detector.see
    refine ⟨fun hd hc hm => ?_, fun hnot => ?_⟩
    · rw [if_pos hc, if_pos ⟨hd, hmarked.mpr hm⟩]
    · rw [hstep]
      cases candidate with
      | false => exact ⟨rfl, fun _ _ => nofun, fun _ => ⟨nofun, fun _ => rfl⟩⟩
      | true =>
        rw [if_pos rfl, if_neg fun h => hnot ⟨h.1, rfl, hmarked.mp h.2⟩]
        refine ⟨rfl, fun h1 h4 _ hw => ?_, fun h => ⟨fun _ hw => ?_, fun hw => ?_⟩⟩
        · refine Eq.trans ?_ (hon h1 h4 ((hword _).mpr hw))
          show stepOf (d.advance w) = _
          cases d.advance w <;> rfl
        · show d.advance w = _
          rw [hback fun hn => h ⟨hn.1, hn.2.1, rfl, (hword _).mp hn.2.2⟩, if_pos ((hword 1).mpr hw)]
        · have hw : ¬stepWord 1 := hw.resolve_left (by decide)
          show d.advance w = _
          rw [hback fun hn => h ⟨hn.1, hn.2.1, rfl, (hword _).mp hn.2.2⟩, if_neg (mt (hword 1).mp hw)]

end Sys2Proof.Machine
end

section
/-! What a sweep writes and expects, and what a compare finds (O26). -/

namespace Sys2Proof.Machine

/-! ### Digits -/

section
variable {W : Nat} {d : Nat → Nat}

theorem sum_digits_succ (n : Nat) :
    ((List.range (n + 1)).map fun j => d j * 2 ^ (W * j)).sum =
      2 ^ (W * n) * d n + ((List.range n).map fun j => d j * 2 ^ (W * j)).sum := by
  simp [List.range_succ, Nat.mul_comm (d n), Nat.add_comm]

theorem sum_digits_lt (hd : ∀ j, d j < 2 ^ W) (n : Nat) :
    ((List.range n).map fun j => d j * 2 ^ (W * j)).sum < 2 ^ (W * n) := by
  induction n with
  | zero => simp
  | succ n ih =>
    rw [sum_digits_succ, Nat.mul_succ, Nat.pow_add]
    have : 2 ^ (W * n) * (d n + 1) ≤ 2 ^ (W * n) * 2 ^ W := Nat.mul_le_mul_left _ (hd n)
    rw [Nat.mul_succ] at this
    omega

/-- Bit `L` of digit `j`. -/
theorem testBit_sum_digits (hd : ∀ j, d j < 2 ^ W) {n j L : Nat} (hj : j < n) (hL : L < W) :
    (((List.range n).map fun j => d j * 2 ^ (W * j)).sum).testBit (W * j + L) = (d j).testBit L := by
  induction n with
  | zero => exact absurd hj (Nat.not_lt_zero j)
  | succ n ih =>
    rw [sum_digits_succ, Nat.testBit_two_pow_mul_add _ (sum_digits_lt hd n)]
    obtain hlt | rfl : j < n ∨ j = n := by omega
    · have hle : W * (j + 1) ≤ W * n := Nat.mul_le_mul_left W hlt
      rw [Nat.mul_succ] at hle
      rw [if_pos (by omega), ih hlt]
    · rw [if_neg (by omega), Nat.add_sub_cancel_left]

end

/-! ### The patterns (R20, R21) -/

theorem Width.lanes_eq (w : Width) : w.lanes = w.wordBits := by cases w <;> rfl

theorem getLsbD_wordsBlock (w : Width) (ones : Nat → Bool) {j L : Nat} (hj : j < w.columnsPerBlock) (hL : L < w.lanes) :
    (wordsBlock w ones).getLsbD (w.wordBits * j + L) = ones j := by
  have hfit : w.wordBits * j + L < 512 := by
    cases w <;> simp only [Width.columnsPerBlock, Width.lanes, Width.wordBits, Width.wordBytes] at * <;> omega
  have hdigits (i : Nat) : (if ones i then (2 ^ w.wordBits - 1) * 2 ^ (w.wordBits * i) else 0) =
      (if ones i then 2 ^ w.wordBits - 1 else 0) * 2 ^ (w.wordBits * i) := by split <;> simp
  have hlt (i : Nat) : (if ones i then 2 ^ w.wordBits - 1 else 0) < 2 ^ w.wordBits := by
    have := Nat.two_pow_pos w.wordBits
    split <;> omega
  rw [Width.lanes_eq] at hL
  unfold wordsBlock
  rw [BitVec.getLsbD_ofNat, List.map_congr_left fun i _ => hdigits i, testBit_sum_digits hlt hj hL]
  cases ones j <;> simp [hfit, hL]

theorem backgroundOnes_eq (b : Background) (row column : Nat) :
    backgroundOnes b row column = match b with
      | .solid => false
      | .checker => decide ((row + column) % 2 = 1)
      | .rowStripe => decide (row % 2 = 1)
      | .columnStripe => decide (column % 2 = 1) := by
  cases b with
  | solid => rfl
  | checker | rowStripe | columnStripe => exact beq_eq_decide ..

theorem inverts_eq (how : MarchOp) : how.inverts = decide (how = .w1 ∨ how = .r1) := by cases how <;> rfl

theorem writes_iff (how : MarchOp) : how.writes = true ↔ how = .w0 ∨ how = .w1 := by cases how <;> decide

/-! ### The march in force -/

theorem elementAt_eq_some_iff (march : List Element) (n : Nat) (e : Element) :
    elementAt march n = some e ↔ 1 ≤ n ∧ march[n - 1]? = some e := by
  unfold elementAt
  split
  next h => simp [h]
  next h => simp [Nat.one_le_iff_ne_zero, h]

theorem sweep_blockOps_eq {m : Sweep} {e : Element} (g : Geometry) (he : m.current = some e) :
    m.blockOps g = e.applied.map fun how =>
      { owner := .sweep true how,
        write := if how = .w0 ∨ how = .w1 then some (patternBlock g.width e.background m.row m.col how.inverts) else none,
        bank := m.bank, row := m.row, col := m.col, layout := g.width } := by
  unfold Sweep.blockOps
  rw [he]
  refine List.map_congr_left fun how _ => ?_
  simp only [writes_iff]

theorem afterPause_iff (strap : BitVec 8) (march : List Element) (n : Nat) :
    afterPause strap march n = true ↔
      2 ≤ n ∧ ∃ e, march[n - 2]? = some e ∧ strapPauses strap = true ∧ 0 < e.pauseCode := by
  have hpause (e : Element) : 0 < effectivePause strap e ↔ strapPauses strap = true ∧ 0 < e.pauseCode := by
    unfold effectivePause
    split <;> simp [*]
  unfold afterPause
  split
  next e he =>
    obtain ⟨hn, he⟩ := (elementAt_eq_some_iff ..).mp he
    rw [Nat.sub_sub] at he
    simp only [Bool.and_eq_true, decide_eq_true_eq, hpause]
    exact ⟨fun h => ⟨by omega, e, he, h.2⟩, fun ⟨hn, x, hx, h⟩ => ⟨by omega, by rwa [Option.some.inj (he.symm.trans hx)]⟩⟩
  next hnone =>
    refine iff_of_false Bool.false_ne_true fun ⟨hn, e, he, _⟩ => ?_
    have := (elementAt_eq_some_iff march (n - 1) e).mpr ⟨by omega, by rwa [Nat.sub_sub]⟩
    rw [hnone] at this
    cases this

/-! ### The compare (R29, R30) -/

section
variable (w : Width) (data expected : Block)

theorem getLsbD_blockWord (b : Block) (j L : Nat) :
    (blockWord w b j).getLsbD L = (decide (L < w.lanes) && b.getLsbD (w.wordBits * j + L)) := by
  cases w with
  | full => simp only [blockWord, BitVec.getLsbD_extractLsb', Width.lanes, Width.wordBits, Width.wordBytes]; rfl
  | half =>
    simp only [blockWord, BitVec.getLsbD_setWidth, BitVec.getLsbD_extractLsb', Width.lanes, Width.wordBits,
      Width.wordBytes]
    by_cases h : L < 32
    · simp [h, show L < 64 by omega]
    · simp [h]

/-- Lane `L` of column word `j` is read otherwise than expected. -/
def laneDiffers (j L : Nat) : Prop :=
  data.getLsbD (w.wordBits * j + L) ≠ expected.getLsbD (w.wordBits * j + L)

theorem getLsbD_wordDiff (j L : Nat) :
    (wordDiff w data expected j).getLsbD L = true ↔ L < w.lanes ∧ laneDiffers w data expected j L := by
  unfold wordDiff laneDiffers
  rw [BitVec.getLsbD_xor, getLsbD_blockWord, getLsbD_blockWord]
  by_cases h : L < w.lanes <;> simp [h]

theorem wordDiff_ne_zero_iff (j : Nat) :
    wordDiff w data expected j ≠ 0 ↔ ∃ L < w.lanes, laneDiffers w data expected j L := by
  refine ⟨fun h => ?_, fun ⟨L, hL, hd⟩ h => ?_⟩
  · by_contra hno
    refine h (BitVec.eq_of_getLsbD_eq fun L _ => Eq.trans ?_ BitVec.getLsbD_zero.symm)
    rw [Bool.eq_false_iff]
    exact fun hbit => hno ⟨L, (getLsbD_wordDiff ..).mp hbit⟩
  · have := (getLsbD_wordDiff w data expected j L).mpr ⟨hL, hd⟩
    rw [h] at this
    exact absurd (this.symm.trans BitVec.getLsbD_zero) (by decide)

theorem mem_failingColumns_iff (col x : Nat) :
    x ∈ failingColumns w col data expected ↔
      ∃ j < w.columnsPerBlock, x = col * w.columnsPerBlock + j ∧ ∃ L < w.lanes, laneDiffers w data expected j L := by
  unfold failingColumns
  simp only [List.mem_map, List.mem_filter, List.mem_range, bne_iff_ne, wordDiff_ne_zero_iff, and_assoc]
  exact exists_congr fun j => and_congr_right fun _ => ⟨fun ⟨h, e⟩ => ⟨e.symm, h⟩, fun ⟨e, h⟩ => ⟨h, e.symm⟩⟩

theorem failingColumns_ascend (col : Nat) : (failingColumns w col data expected).Pairwise fun x y => x < y :=
  ((List.pairwise_lt_range.filter _).map _) fun _ _ h => Nat.add_lt_add_left h _

theorem getLsbD_foldl_or (f : Nat → BitVec 64) (l : List Nat) (acc : BitVec 64) (L : Nat) :
    (l.foldl (fun acc j => acc ||| f j) acc).getLsbD L = true ↔ acc.getLsbD L = true ∨ ∃ j ∈ l, (f j).getLsbD L = true := by
  induction l generalizing acc with
  | nil => simp
  | cons j l ih => simp [ih, or_assoc]

theorem getLsbD_failingLanes (L : Nat) :
    (failingLanes w data expected).getLsbD L = true ↔
      L < w.lanes ∧ ∃ j < w.columnsPerBlock, laneDiffers w data expected j L := by
  unfold failingLanes
  rw [getLsbD_foldl_or]
  simp only [BitVec.ofNat_eq_ofNat, BitVec.getLsbD_zero, Bool.false_eq_true, false_or, List.mem_range, getLsbD_wordDiff]
  exact ⟨fun ⟨j, hj, hL, h⟩ => ⟨hL, j, hj, h⟩, fun ⟨hL, j, hj, h⟩ => ⟨j, hj, hL, h⟩⟩

end

/-- Settles O26. -/
theorem compareFindsFailures : Obligations.CompareFindsFailures := by
  refine ⟨?_, fun q => ⟨fun k p hp => ?_, fun hp => ?_⟩,
    fun m e => elementAt_eq_some_iff .., fun m g e he => ⟨rfl, sweep_blockOps_eq g he⟩, writes_iff, afterPause_iff,
    fun w col data expected => ⟨mem_failingColumns_iff w data expected col, failingColumns_ascend w data expected col,
      getLsbD_failingLanes w data expected⟩⟩
  · intro w b row col how j L hj hL column ones
    have hones : backgroundOnes b row (col * w.columnsPerBlock + j) = ones := backgroundOnes_eq ..
    refine (getLsbD_wordsBlock w _ hj hL).trans ?_
    rw [hones, inverts_eq]
    by_cases h : how = .w1 ∨ how = .r1 <;> simp [h]
  · rw [Sequencer.march, hp]
  · rw [Sequencer.march, hp]
    rfl

end Sys2Proof.Machine
end

section
/-! The request header as it is received (O38). -/

namespace Sys2Proof.Machine

/-- The number of ones among the first `n` bits. -/
def onesBelow (n v : Nat) : Nat := ((List.range n).filter fun i => v.testBit i).length

theorem onesBelow_succ (n v : Nat) : onesBelow (n + 1) v = onesBelow n v + (v.testBit n).toNat := by
  unfold onesBelow
  rw [List.range_succ, List.filter_append, List.length_append]
  cases h : v.testBit n <;> simp [h]

theorem onesBelow_congr {n u v : Nat} (h : ∀ i < n, u.testBit i = v.testBit i) : onesBelow n u = onesBelow n v := by
  unfold onesBelow
  rw [List.filter_congr fun i hi => h i (List.mem_range.mp hi)]

theorem foldl_xor_eq (f : Nat → Bool) (n : Nat) :
    (List.range n).foldl (fun acc i => acc ^^ f i) false = decide (((List.range n).filter f).length % 2 = 1) := by
  induction n with
  | zero => rfl
  | succ n ih =>
    rw [List.range_succ, List.foldl_append, List.foldl_cons, List.foldl_nil, ih, List.filter_append, List.length_append]
    cases h : f n
    · simp [h]
    · obtain h2 | h2 := Nat.mod_two_eq_zero_or_one ((List.range n).filter f).length <;> simp [h, h2] <;> omega

/-- The header as a number. -/
def headerNat (b : Vector Byte 5) : Nat :=
  b[0].toNat + 256 * b[1].toNat + 256 ^ 2 * b[2].toNat + 256 ^ 3 * b[3].toNat + 256 ^ 4 * b[4].toNat

theorem toNat_append_eq {m n : Nat} (x : BitVec m) (y : BitVec n) : (x ++ y).toNat = 2 ^ n * x.toNat + y.toNat := by
  rw [BitVec.toNat_append, ← Nat.shiftLeft_add_eq_or_of_lt y.isLt, Nat.shiftLeft_eq, Nat.mul_comm]

theorem headerBits_toNat (b : Vector Byte 5) : (headerBits b).toNat = headerNat b := by
  unfold headerBits headerNat
  simp only [toNat_append_eq]
  omega

theorem headerField_toNat (h : BitVec 40) (i k : Nat) : (h.extractLsb' i k).toNat = h.toNat / 2 ^ i % 2 ^ k := by
  rw [BitVec.extractLsb'_toNat, Nat.shiftRight_eq_div_pow]

theorem headerOdd_eq (h : BitVec 40) : headerOdd h = decide (onesBelow 40 h.toNat % 2 = 1) := foldl_xor_eq _ 40

/-- The message is sound (R135). -/
def soundMessage (v n : Nat) : Prop :=
  onesBelow 40 v % 2 = 1 ∧ (v % 16 = 0 ∧ n = 0 ∨ v % 16 = 1 ∧ n = v / 512 % 4 + 1)

/-- The request that a sound header's fields spell (section 11.3). -/
def requestOf (v : Nat) (data : List Block) : Request :=
  { isWrite := decide (v % 16 = 1), tag := v / 16 % 32, lenCode := v / 512 % 4, addr := v / 2048 % 2 ^ 28, data := data }

theorem parseMessage_eq (b : Vector Byte 5) (data : List Block) :
    (soundMessage (headerNat b) data.length → parseMessage b data = some (requestOf (headerNat b) data)) ∧
    (¬soundMessage (headerNat b) data.length → parseMessage b data = none) := by
  have hkind : headerKind (headerBits b) = headerNat b % 16 := by
    rw [headerKind, headerField_toNat, headerBits_toNat, Nat.pow_zero, Nat.div_one]; rfl
  have htag : headerTag (headerBits b) = headerNat b / 16 % 32 := by
    rw [headerTag, headerField_toNat, headerBits_toNat]; rfl
  have hlen : headerLenCode (headerBits b) = headerNat b / 512 % 4 := by
    rw [headerLenCode, headerField_toNat, headerBits_toNat]; rfl
  have haddr : headerAddr (headerBits b) = headerNat b / 2048 % 2 ^ 28 := by
    rw [headerAddr, headerField_toNat, headerBits_toNat]; rfl
  unfold parseMessage parseRequest
  rw [headerOdd_eq, headerBits_toNat, hkind, htag, hlen, haddr]
  simp only [Bool.and_eq_true, Bool.or_eq_true, decide_eq_true_eq, beq_iff_eq]
  exact ⟨fun h => (if_pos h).trans (by rw [beq_eq_decide]; rfl), fun h => if_neg h⟩

/-- A parity bit makes the number of ones odd. -/
theorem exists_parity {v : Nat} (hv : v < 2 ^ 39) : ∃ parity < 2, onesBelow 40 (v + 2 ^ 39 * parity) % 2 = 1 := by
  have hbit (p : Nat) (hp : p < 2) : onesBelow 40 (v + 2 ^ 39 * p) = onesBelow 39 v + p := by
    have htest (i : Nat) : (v + 2 ^ 39 * p).testBit i = if i < 39 then v.testBit i else p.testBit (i - 39) := by
      rw [Nat.add_comm, Nat.testBit_two_pow_mul_add _ hv]
    rw [onesBelow_succ, htest, if_neg (lt_irrefl 39), Nat.sub_self,
      onesBelow_congr fun i hi => (htest i).trans (if_pos hi)]
    obtain rfl | rfl : p = 0 ∨ p = 1 := by omega
    · rfl
    · rfl
  obtain h | h := Nat.mod_two_eq_zero_or_one (onesBelow 39 v)
  · exact ⟨1, by decide, by rw [hbit 1 (by decide)]; omega⟩
  · exact ⟨0, by decide, by rw [hbit 0 (by decide)]; omega⟩

theorem headerNat_bytes {v : Nat} (hv : v < 256 ^ 5) :
    headerNat (Vector.ofFn fun i : Fin 5 => BitVec.ofNat 8 (v / 256 ^ i.val)) = v := by
  simp only [headerNat, Vector.getElem_ofFn, BitVec.toNat_ofNat]
  omega

/-- Settles O38. -/
theorem requestHeaderRoundTrip : Obligations.RequestHeaderRoundTrip := by
  refine ⟨parseMessage_eq, fun isWrite tag lenCode addr data htag hlen haddr hdata => ?_⟩
  obtain ⟨kind, hkind, hkind2⟩ : ∃ kind, (if isWrite then 1 else 0) = kind ∧ kind < 2 := ⟨_, rfl, by split <;> omega⟩
  obtain ⟨parity, hp, hodd⟩ := exists_parity (v := kind + 16 * tag + 512 * lenCode + 2048 * addr) (by omega)
  refine ⟨parity, hp, ?_⟩
  intro v
  have hv : v = kind + 16 * tag + 512 * lenCode + 2048 * addr + 2 ^ 39 * parity := by rw [← hkind]
  clear_value v
  have hsound : soundMessage v data.length := by
    refine ⟨hv ▸ hodd, ?_⟩
    cases isWrite with
    | false => exact .inl ⟨by rw [if_neg Bool.false_ne_true] at hkind; omega, hdata⟩
    | true => exact .inr ⟨by rw [if_pos rfl] at hkind; omega, hdata.trans (by rw [if_pos rfl]; omega)⟩
  have hbytes := headerNat_bytes (v := v) (by omega)
  have := (parseMessage_eq (Vector.ofFn fun i : Fin 5 => BitVec.ofNat 8 (v / 256 ^ i.val)) data).1 (hbytes.symm ▸ hsound)
  rw [this, hbytes]
  have e1 : v % 16 = kind := by omega
  have e2 : v / 16 % 32 = tag := by omega
  have e3 : v / 512 % 4 = lenCode := by omega
  have e4 : v / 2048 % 2 ^ 28 = addr := by omega
  rw [requestOf, e1, e2, e3, e4, ← hkind]
  cases isWrite <;> rfl

end Sys2Proof.Machine
end

section
/-! The bytes of the report and of the messages to the controller (O50). -/

namespace Sys2Proof.Machine

/-! ### Little-endian fields -/

/-- The little-endian number in a list of bytes. -/
def leValue (l : List Byte) : Nat := l.foldr (fun b acc => b.toNat + 256 * acc) 0

theorem leValue_littleEndian (k n : Nat) : leValue (littleEndian k n) = n % 256 ^ k := by
  induction k generalizing n with
  | zero => exact (Nat.mod_one n).symm
  | succ k ih =>
    show (byteOf n).toNat + 256 * leValue (littleEndian k (n / 256)) = _
    rw [ih, Nat.pow_succ', Nat.mod_mul, byteOf, BitVec.toNat_ofNat]

theorem fieldAt_eq {l : List Byte} {i k n : Nat} (h : (l.drop i).take k = littleEndian k n) : fieldAt l i k = n % 256 ^ k :=
  (congrArg leValue h).trans (leValue_littleEndian k n)

theorem fieldAt_drop (l : List Byte) (a i k : Nat) : fieldAt l (a + i) k = fieldAt (l.drop a) i k := by
  rw [fieldAt, fieldAt, List.drop_drop]

theorem leValue_lt (l : List Byte) : leValue l < 256 ^ l.length := by
  induction l with
  | nil => exact Nat.one_pos
  | cons b l ih =>
    show b.toNat + 256 * leValue l < 256 ^ (l.length + 1)
    rw [Nat.pow_succ']
    have := b.isLt
    omega

theorem leValue_div (l : List Byte) (i : Nat) : leValue l / 256 ^ i % 256 = (l.getD i 0).toNat := by
  induction l generalizing i with
  | nil => simp [leValue]
  | cons b l ih =>
    show (b.toNat + 256 * leValue l) / 256 ^ i % 256 = _
    have := b.isLt
    cases i with
    | zero => simp; omega
    | succ i =>
      rw [Nat.pow_succ', ← Nat.div_div_eq_div_mul, show (b.toNat + 256 * leValue l) / 256 = leValue l by omega, ih]
      rfl

/-- A byte of a block is the byte it was filled with. -/
theorem extractLsb'_blockOfBytes {l : List Byte} (hl : l.length ≤ 64) (i : Nat) :
    (blockOfBytes l).extractLsb' (8 * i) 8 = l.getD i 0 := by
  have hlt : leValue l < 2 ^ 512 := by
    rw [show 512 = 8 * 64 from rfl, Nat.pow_mul]
    exact (leValue_lt l).trans_le (Nat.pow_le_pow_right (by decide) hl)
  refine BitVec.eq_of_toNat_eq ?_
  rw [BitVec.extractLsb'_toNat, Nat.shiftRight_eq_div_pow, ← leValue_div, Nat.pow_mul]
  exact congrArg (· / 256 ^ i % 256) ((BitVec.toNat_ofNat ..).trans (Nat.mod_eq_of_lt hlt))

theorem drop_flatMap {α β : Type} {f : α → List β} {n : Nat} (hf : ∀ a, (f a).length = n) (l : List α) (i : Nat) :
    (l.flatMap f).drop (n * i) = (l.drop i).flatMap f := by
  induction i generalizing l with
  | zero => simp
  | succ i ih =>
    cases l with
    | nil => simp
    | cons a l =>
      rw [List.flatMap_cons, Nat.mul_succ, Nat.add_comm, ← List.drop_drop, ← hf a, List.drop_left, hf a, ih]
      rfl

theorem length_flatMap_const {α β : Type} {f : α → List β} {n : Nat} (hf : ∀ a, (f a).length = n) (l : List α) :
    (l.flatMap f).length = n * l.length := by
  simp [List.length_flatMap, hf, Nat.mul_comm]

/-! ### Bits of a byte -/

theorem bitAt_eq (b : Bool) (i : Nat) : bitAt b i = 2 ^ i * b.toNat := by cases b <;> simp [bitAt]

theorem testBit_eq {n i : Nat} {b : Bool} (h : n / 2 ^ i % 2 = b.toNat) : n.testBit i = b := by
  rw [Nat.testBit_eq_decide_div_mod_eq, h]
  cases b <;> rfl

/-- Bit `b` of a bank mask says whether bank `b` is in the set (R154). -/
theorem testBit_bankMask (banks : List Nat) {b : Nat} (hb : b < 16) : (bankMask banks).testBit b = decide (b ∈ banks) := by
  have hdigit (j : Nat) : (if banks.contains j then 2 ^ j else 0) = (if banks.contains j then 1 else 0) * 2 ^ (1 * j) := by
    split <;> simp
  have hlt (j : Nat) : (if banks.contains j then 1 else 0) < 2 ^ 1 := by split <;> decide
  have := testBit_sum_digits (W := 1) hlt hb (L := 0) Nat.one_pos
  rw [Nat.one_mul, Nat.add_zero] at this
  rw [bankMask, List.map_congr_left fun j _ => hdigit j, this, List.contains_eq_mem]
  by_cases h : b ∈ banks <;> simp [h]

theorem bankMask_lt (banks : List Nat) : bankMask banks < 65536 := by
  have hdigit (j : Nat) : (if banks.contains j then 2 ^ j else 0) = (if banks.contains j then 1 else 0) * 2 ^ (1 * j) := by
    split <;> simp
  have hlt (j : Nat) : (if banks.contains j then 1 else 0) < 2 ^ 1 := by split <;> decide
  rw [bankMask, List.map_congr_left fun j _ => hdigit j]
  exact sum_digits_lt (W := 1) hlt 16

theorem lowestLane_eq {m : BitVec 64} {L : Nat} (hL : L < 64) (h : m.getLsbD L = true) (hlow : ∀ j < L, m.getLsbD j = false) :
    lowestLane m = L := by
  have : (List.range 64).find? (fun i => m.getLsbD i) = some L := by
    rw [List.find?_range_eq_some]
    exact ⟨h, List.mem_range.mpr hL, fun j hj => by simp [hlow j hj]⟩
  rw [lowestLane, this, Option.getD_some]

theorem lowestLane_lt (m : BitVec 64) : lowestLane m < 64 := by
  unfold lowestLane
  cases h : (List.range 64).find? fun i => m.getLsbD i with
  | none => decide
  | some L => exact List.mem_range.mp (List.mem_of_find?_eq_some h)

theorem singleLane_iff (m : BitVec 64) : singleLane m = true ↔ ∃ L < 64, ∀ j < 64, m.getLsbD j = decide (j = L) := by
  unfold singleLane
  rw [beq_iff_eq]
  refine ⟨fun h => ?_, fun ⟨L, hL, h⟩ => ?_⟩
  · obtain ⟨L, he⟩ := List.length_eq_one_iff.mp h
    have hmem (j : Nat) : j < 64 ∧ m.getLsbD j = true ↔ j = L := by
      rw [← List.mem_singleton (a := j) (b := L), ← he, List.mem_filter, List.mem_range]
    refine ⟨L, ((hmem L).mpr rfl).1, fun j hj => ?_⟩
    rw [Bool.eq_iff_iff, decide_eq_true_iff, ← hmem j]
    exact (and_iff_right hj).symm
  · rw [List.filter_congr fun j hj => h j (List.mem_range.mp hj), ← List.countP_eq_length_filter]
    exact (List.countP_congr fun j _ => by simp).trans
      (List.count_eq_one_of_mem List.nodup_range (List.mem_range.mpr hL))

/-! ### Check bytes (R160) -/

theorem byteSum_append (a b : List Byte) : byteSum (a ++ b) = byteSum a + byteSum b := by simp [byteSum]

theorem byteSum_checked (a b : List Byte) : byteSum (a ++ [checkByte (a ++ b)] ++ b) % 256 = 0 := by
  have hcheck : byteSum [checkByte (a ++ b)] = (256 - byteSum (a ++ b) % 256) % 256 :=
    (Nat.add_zero _).trans (BitVec.toNat_ofNat ..)
  rw [byteSum_append, byteSum_append, hcheck, byteSum_append]
  omega

/-! ### The codes of the tables -/

theorem loaderState_of_code (x : LoaderState) :
    [LoaderState.idle, .loading, .valid, .truncated, .absent, .bad, .late][x.code]? = some x := by cases x <;> rfl

theorem SeqState.code_lt (x : SeqState) : x.code < 16 := by cases x <;> decide

theorem EndResult.code_lt (x : EndResult) : x.code < 16 := by cases x <;> decide

theorem Reason.code_lt (x : Reason) : x.code < 256 := by cases x <;> decide

theorem seqState_of_code (x : SeqState) :
    [SeqState.powering, .identifying, .selecting, .queued, .testing, .analysing, .done, .opened, .draining, .closing,
      .failed, .absent][x.code]? = some x := by cases x <;> rfl

theorem endResult_of_code (x : EndResult) :
    [EndResult.unset, .clean, .repaired, .partly, .untested, .degraded, .failed][x.code]? = some x := by cases x <;> rfl

theorem reason_of_code (x : Reason) :
    [Reason.unset, .repair, .supplyLost, .noResponse, .identityUnstable, .width, .geometry, .notReady][x.code]? = some x := by
  cases x <;> rfl

theorem width_of_code (x : Option Width) : [none, some Width.full, some .half][widthCode x]? = some x := by
  obtain _ | _ | _ := x
  · rfl
  · rfl
  · rfl

theorem widthCode_lt (x : Option Width) : widthCode x < 3 := by
  obtain _ | _ | _ := x
  · decide
  · decide
  · decide

theorem recStatus_of_code (x : RecStatus) :
    [RecStatus.repairedSpare, .repairedShadow, .marginal, .unrepairable, .column, .pending][x.kindCode]? = some x := by
  cases x <;> rfl

/-! ### The records (section 11.5) -/

theorem headerRecord_layout (s : State) : HeaderLayout s s.headerRecord := by
  refine ⟨rfl, fieldAt_eq (n := 1) rfl, fieldAt_eq (n := 2) rfl, rfl, ?_, ?_, fieldAt_eq (n := 4) rfl, fun i h1 h2 => ?_, ?_⟩
  · have hcode : fieldAt s.headerRecord 3 1 = s.loader.state.code :=
      (fieldAt_eq (n := s.loader.state.code) rfl).trans (Nat.mod_eq_of_lt (by cases s.loader.state <;> decide))
    rw [hcode]
    exact loaderState_of_code _
  · exact (fieldAt_eq rfl).trans (Nat.mod_eq_of_lt s.loader.kept.revision.isLt)
  · have hsplit : s.headerRecord = s.headerBody.take 7 ++ (List.replicate 24 0 ++ [checkByte s.headerBody]) := rfl
    have hlen : (s.headerBody.take 7).length = 7 := rfl
    rw [hsplit, List.getElem?_append_right (by omega), hlen, List.getElem?_append_left (by rw [List.length_replicate]; omega),
      List.getElem?_replicate, if_pos (by omega)]
  · have := byteSum_checked s.headerBody []
    rwa [List.append_nil, List.append_nil] at this

theorem entryBytes_layout (r : FailRecord) (rest : List Byte) : EntryLayout (r.entryBytes ++ rest) 0 r := by
  have hflags : fieldAt (r.entryBytes ++ rest) 6 1 =
      r.firstElement % 16 + 2 ^ 4 * r.retention.toNat + 2 ^ 5 * r.many.toNat := by
    refine (fieldAt_eq (n := r.firstElement % 16 + bitAt r.retention 4 + bitAt r.many 5) rfl).trans ?_
    rw [bitAt_eq, bitAt_eq]
    have := r.retention.toNat_lt
    have := r.many.toNat_lt
    omega
  have hlane : fieldAt (r.entryBytes ++ rest) 7 1 = lowestLane r.lanes + 2 ^ 7 * (singleLane r.lanes).toNat := by
    refine (fieldAt_eq (n := lowestLane r.lanes + bitAt (singleLane r.lanes) 7) rfl).trans ?_
    rw [bitAt_eq]
    have := (singleLane r.lanes).toNat_lt
    have := lowestLane_lt r.lanes
    omega
  have hkind : fieldAt (r.entryBytes ++ rest) 3 1 = r.status.kindCode :=
    (fieldAt_eq (n := r.status.kindCode) rfl).trans (Nat.mod_eq_of_lt (by cases r.status <;> decide))
  have hret := r.retention.toNat_lt
  have hmany := r.many.toNat_lt
  have hsingle := (singleLane r.lanes).toNat_lt
  have hlow := lowestLane_lt r.lanes
  refine ⟨fieldAt_eq rfl, fieldAt_eq rfl, ?_, fieldAt_eq rfl, fieldAt_eq rfl, ?_, ?_, ?_, ?_, fun L hL h hbelow => ?_, ?_, ?_⟩
  · simp only [Nat.zero_add]
    rw [hkind]
    exact recStatus_of_code _
  · simp only [Nat.zero_add, hflags]; omega
  · simp only [Nat.zero_add, hflags]; exact testBit_eq (by omega)
  · simp only [Nat.zero_add, hflags]; exact testBit_eq (by omega)
  · simp only [Nat.zero_add, hflags]; omega
  · simp only [Nat.zero_add, hlane]
    rw [lowestLane_eq hL h hbelow]
    omega
  · simp only [Nat.zero_add, hlane]; exact testBit_eq (by simp only [Bool.toNat_false]; omega)
  · simp only [Nat.zero_add, hlane]
    rw [testBit_eq (b := singleLane r.lanes) (by omega)]
    exact singleLane_iff _

theorem entryLayout_drop {l : List Byte} {i : Nat} {r : FailRecord} (h : EntryLayout (l.drop i) 0 r) : EntryLayout l i r := by
  unfold EntryLayout at *
  simp only [fieldAt_drop l i]
  simpa only [Nat.zero_add, show fieldAt l i 1 = fieldAt (l.drop i) 0 1 from fieldAt_drop l i 0 1] using h

theorem countStatus_eq (l : FailLog) (st : RecStatus) :
    l.countStatus st = (l.records.filter fun r => r.status = st).length := by
  unfold FailLog.countStatus
  exact congrArg List.length (List.filter_congr fun r _ => beq_eq_decide _ _)

theorem mem_columnBanks_iff (l : FailLog) (b : Nat) :
    b ∈ l.columnBanks ↔ ∃ r ∈ l.records, r.bank = b ∧ r.status = .column := by
  simp [FailLog.columnBanks, and_assoc, and_comm]

theorem heldBy_le (sh : Shadow) (c : Chan) : sh.heldBy c ≤ 32 :=
  (List.length_filter_le _ _).trans_eq (by simp)

theorem heldBy_eq (sh : Shadow) (c : Chan) : sh.heldBy c = (sh.holders.toList.filter fun h => h = some c).length := by
  unfold Shadow.heldBy
  exact congrArg List.length (List.filter_congr fun r _ => beq_eq_decide _ _)

/-- The bytes of a channel's record one by one. -/
theorem channelRecord_eq (s : State) (c : Chan) :
    let ch := s.chan c
    let q := ch.seq
    let len := ch.log.recordLength
    let le2 (n : Nat) (rest : List Byte) : List Byte := byteOf n :: byteOf (n / 256) :: rest
    s.channelRecord c =
      byteOf (2 + 16 * c.val) :: (le2 len <| le2 (if c.val = 3 then 0 else len) <|
      byteOf (q.state.code + 16 * q.result.code) :: byteOf q.reason.code :: q.flagsByte ::
      (le2 (q.identityRead.getD 0).toNat <| le2 (q.effective.getD 0).toNat <|
      byteOf ((q.profile.map Prod.fst).getD 255) :: byteOf ch.log.records.length ::
      (le2 ch.visibleBlocks <| le2 (ch.visibleBlocks / 256 / 256) <|
      le2 (bankMask q.entered) <| le2 (bankMask q.fullySwept) <| le2 (bankMask ch.log.columnBanks) <|
      byteOf (ch.log.countStatus .repairedSpare) :: byteOf (ch.log.countStatus .repairedShadow) ::
      byteOf (ch.log.countStatus .marginal) :: byteOf (ch.log.countStatus .unrepairable) ::
      byteOf (s.shadow.heldBy c) :: (le2 ch.port.rejectedCount <|
      checkByte (s.channelBody c ++ s.repairList c) :: s.repairList c)))) := by
  simp only [State.channelRecord, State.channelBody, littleEndian, List.cons_append, List.nil_append]

theorem entryBytes_length (r : FailRecord) : r.entryBytes.length = 8 := rfl

theorem channelRecord_drop (s : State) (c : Chan) :
    (s.channelRecord c).drop 32 = (s.chan c).log.records.flatMap FailRecord.entryBytes := by
  rw [channelRecord_eq]
  rfl

theorem channelRecord_length (s : State) (c : Chan) :
    (s.channelRecord c).length = 32 + 8 * (s.chan c).log.records.length := by
  have hbody : (s.channelBody c ++ [checkByte (s.channelBody c ++ s.repairList c)]).length = 32 := rfl
  rw [State.channelRecord, List.length_append, hbody, State.repairList, length_flatMap_const entryBytes_length]

theorem channelRecord_entry (s : State) (c : Chan) {i : Nat} {r : FailRecord} (h : (s.chan c).log.records[i]? = some r) :
    EntryLayout (s.channelRecord c) (32 + 8 * i) r := by
  refine entryLayout_drop ?_
  rw [← List.drop_drop, channelRecord_drop, drop_flatMap entryBytes_length]
  obtain ⟨hlt, rfl⟩ := List.getElem?_eq_some_iff.mp h
  rw [List.drop_eq_getElem_cons hlt, List.flatMap_cons]
  exact entryBytes_layout _ _

theorem flagsByte_eq (q : Sequencer) :
    q.flagsByte.toNat = 2 ^ 0 * q.aliasUsed.toNat + 2 * widthCode q.width + 2 ^ 3 * q.supplyUnconfirmed.toNat +
      2 ^ 4 * q.causes.unrepairable.toNat + 2 ^ 5 * q.causes.column.toNat + 2 ^ 6 * q.causes.overflow.toNat := by
  unfold Sequencer.flagsByte byteOf
  rw [BitVec.toNat_ofNat, bitAt_eq, bitAt_eq, bitAt_eq, bitAt_eq, bitAt_eq]
  have := q.aliasUsed.toNat_lt
  have := widthCode_lt q.width
  have := q.supplyUnconfirmed.toNat_lt
  have := q.causes.unrepairable.toNat_lt
  have := q.causes.column.toNat_lt
  have := q.causes.overflow.toNat_lt
  omega

/-- The two bytes of a bank mask. -/
theorem testBit_maskField {l : List Byte} {i : Nat} {banks : List Nat}
    (h : (l.drop i).take 2 = littleEndian 2 (bankMask banks)) {b : Nat} (hb : b < 16) :
    (fieldAt l i 2).testBit b = decide (b ∈ banks) := by
  rw [(fieldAt_eq h).trans (Nat.mod_eq_of_lt (bankMask_lt banks)), testBit_bankMask banks hb]

theorem channelRecord_layout (s : State) (c : Chan) : ChannelLayout s c (s.channelRecord c) := by
  have hl := channelRecord_eq s c
  have hends : fieldAt (s.channelRecord c) 5 1 = (s.chan c).seq.state.code + 16 * (s.chan c).seq.result.code := by
    refine (fieldAt_eq (n := (s.chan c).seq.state.code + 16 * (s.chan c).seq.result.code) (by rw [hl]; rfl)).trans (Nat.mod_eq_of_lt ?_)
    have := (s.chan c).seq.state.code_lt
    have := (s.chan c).seq.result.code_lt
    omega
  have hreason : fieldAt (s.channelRecord c) 6 1 = (s.chan c).seq.reason.code :=
    (fieldAt_eq (n := (s.chan c).seq.reason.code) (by rw [hl]; rfl)).trans (Nat.mod_eq_of_lt (Reason.code_lt _))
  have hflags : fieldAt (s.channelRecord c) 7 1 = (s.chan c).seq.flagsByte.toNat := by
    rw [hl]
    exact Nat.add_zero _
  rw [flagsByte_eq] at hflags
  have hcount (i : Nat) (st : RecStatus)
      (h : ((s.channelRecord c).drop i).take 1 = littleEndian 1 ((s.chan c).log.countStatus st)) :
      fieldAt (s.channelRecord c) i 1 = ((s.chan c).log.records.filter fun r => r.status = st).length % 256 :=
    (fieldAt_eq h).trans (by rw [countStatus_eq]; rfl)
  have hprofile : fieldAt (s.channelRecord c) 12 1 = (((s.chan c).seq.profile.map Prod.fst).getD 255) % 256 :=
    fieldAt_eq (n := ((s.chan c).seq.profile.map Prod.fst).getD 255) (by rw [hl]; rfl)
  have h1 := (s.chan c).seq.aliasUsed.toNat_lt
  have h2 := widthCode_lt (s.chan c).seq.width
  have h3 := (s.chan c).seq.supplyUnconfirmed.toNat_lt
  have h4 := (s.chan c).seq.causes.unrepairable.toNat_lt
  have h5 := (s.chan c).seq.causes.column.toNat_lt
  have h6 := (s.chan c).seq.causes.overflow.toNat_lt
  have h7 := (s.chan c).seq.state.code_lt
  have h8 := heldBy_le s.shadow c
  refine ⟨channelRecord_length s c, ?_, fieldAt_eq (by rw [hl]; rfl), ?_, ?_, ?_, ?_, ?_, ?_, ?_, ?_, ?_, ?_, ?_, ?_, ?_, ?_, ?_,
    fieldAt_eq (by rw [hl]; rfl), fieldAt_eq (by rw [hl]; rfl), fun b hb => ⟨?_, ?_, ?_⟩, hcount 24 _ (by rw [hl]; rfl), hcount 25 _ (by rw [hl]; rfl), hcount 26 _ (by rw [hl]; rfl),
    hcount 27 _ (by rw [hl]; rfl), ?_, fieldAt_eq (by rw [hl]; rfl), byteSum_checked _ _, fun i r h => channelRecord_entry s c h⟩
  · exact (fieldAt_eq (by rw [hl]; rfl)).trans (Nat.mod_eq_of_lt (by omega))
  · refine (fieldAt_eq (by rw [hl]; rfl)).trans ?_
    split
    · rfl
    · rfl
  · rw [hends, Nat.add_mul_mod_self_left, Nat.mod_eq_of_lt h7]
    exact seqState_of_code _
  · rw [hends, Nat.add_mul_div_left _ _ (by decide), Nat.div_eq_of_lt h7, Nat.zero_add]
    exact endResult_of_code _
  · rw [hreason]
    exact reason_of_code _
  · exact testBit_eq (by omega)
  · rw [hflags, show _ / 2 % 4 = widthCode (s.chan c).seq.width by omega]
    exact width_of_code _
  · exact testBit_eq (by omega)
  · exact testBit_eq (by omega)
  · exact testBit_eq (by omega)
  · exact testBit_eq (by omega)
  · omega
  · exact (fieldAt_eq (by rw [hl]; rfl)).trans (Nat.mod_eq_of_lt (BitVec.isLt _))
  · exact (fieldAt_eq (by rw [hl]; rfl)).trans (Nat.mod_eq_of_lt (BitVec.isLt _))
  · exact fun h => by rw [hprofile, h]; rfl
  · exact fun k p h => by rw [hprofile, h]; rfl
  · exact testBit_maskField (by rw [hl]; rfl) hb
  · exact testBit_maskField (by rw [hl]; rfl) hb
  · refine (testBit_maskField (banks := (s.chan c).log.columnBanks) (by rw [hl]; rfl) hb).trans ?_
    rw [decide_eq_decide]
    exact mem_columnBanks_iff _ _
  · refine (fieldAt_eq (n := s.shadow.heldBy c) (by rw [hl]; rfl)).trans ?_
    rw [heldBy_eq] at *
    exact Nat.mod_eq_of_lt (by omega)

/-! ### The report and its blocks -/

theorem reportBytes_eq (s : State) :
    s.reportBytes = s.headerRecord ++ s.channelRecord 0 ++ s.channelRecord 1 ++ s.channelRecord 2 ++ s.channelRecord 3 := by
  simp [State.reportBytes]

theorem reportBytes_length (s : State) (h : LogLaw s) : 160 ≤ s.reportBytes.length ∧ s.reportBytes.length ≤ 4256 := by
  have hheader : s.headerRecord.length = 32 := rfl
  rw [reportBytes_eq]
  simp only [List.length_append, channelRecord_length, hheader]
  have h0 := (h 0).1
  have h1 := (h 1).1
  have h2 := (h 2).1
  have h3 := (h 3).1
  omega

theorem packBlocks_byte (l : List Byte) {i : Nat} {b : Block} (h : (packBlocks l)[i / 64]? = some b) :
    b.extractLsb' (8 * (i % 64)) 8 = l.getD i 0 := by
  obtain ⟨hlt, rfl⟩ := List.getElem?_eq_some_iff.mp h
  simp only [packBlocks, List.getElem_map, List.getElem_range]
  rw [extractLsb'_blockOfBytes (by rw [List.length_take]; omega)]
  simp only [List.getD_eq_getElem?_getD, List.getElem?_take, List.getElem?_drop, Nat.mod_lt i (show 0 < 64 by decide), if_true,
    Nat.div_add_mod]

/-! ### The messages (section 11.3) -/

theorem statusByte_eq (st : Status) :
    st.byte.toNat = st.phase % 4 + 2 ^ 2 * st.rejected.toNat + 2 ^ 3 * st.range.toNat + 2 ^ 4 * st.remapped.toNat +
      2 ^ 5 * st.shadow.toNat + 2 ^ 6 * st.error.toNat := by
  unfold Status.byte
  rw [BitVec.toNat_ofNat, bitAt_eq, bitAt_eq, bitAt_eq, bitAt_eq, bitAt_eq]
  have := st.rejected.toNat_lt
  have := st.range.toNat_lt
  have := st.remapped.toNat_lt
  have := st.shadow.toNat_lt
  have := st.error.toNat_lt
  omega

/-- The bytes of a block, byte 0 first. -/
def blockBytes (b : Block) : List Byte := blockOffsets.map (blockByte b)

theorem blockBytes_length (b : Block) : (blockBytes b).length = 64 := by simp [blockBytes]

theorem flatMap_blockBytes_byte {data : List Block} {i j : Nat} {b : Block} (hb : data[i]? = some b) (hj : j < 64) :
    (data.flatMap blockBytes)[64 * i + j]? = some (b.extractLsb' (8 * j) 8) := by
  obtain ⟨hlt, rfl⟩ := List.getElem?_eq_some_iff.mp hb
  rw [← List.getElem?_drop, drop_flatMap blockBytes_length, List.drop_eq_getElem_cons hlt, List.flatMap_cons,
    List.getElem?_append_left (by rwa [blockBytes_length])]
  simp [blockBytes, blockByte, hj]

theorem messageBytes_layout (m : Message) : MessageLayout m m.bytes := by
  cases m with
  | grant n => exact ⟨rfl, rfl, fieldAt_eq rfl⟩
  | restore n => exact ⟨rfl, rfl, fieldAt_eq rfl⟩
  | response tag lenCode st data =>
    have hhead : fieldAt (Message.response tag lenCode st data).bytes 1 1 = tag % 32 + 32 * (lenCode % 4) :=
      (fieldAt_eq rfl).trans (Nat.mod_eq_of_lt (by omega))
    have hstatus : fieldAt (Message.response tag lenCode st data).bytes 2 1 = st.byte.toNat := Nat.add_zero _
    rw [statusByte_eq] at hstatus
    have h1 := st.rejected.toNat_lt
    have h2 := st.range.toNat_lt
    have h3 := st.remapped.toNat_lt
    have h4 := st.shadow.toNat_lt
    have h5 := st.error.toNat_lt
    refine ⟨?_, rfl, by omega, by omega, by omega, testBit_eq (by omega), testBit_eq (by omega), testBit_eq (by omega),
      testBit_eq (by omega), testBit_eq (by omega), by omega, fun i b hb j hj => ?_⟩
    · rw [Message.bytes, List.length_append, show (data.flatMap fun b => blockOffsets.map (blockByte b)).length = _ from
        length_flatMap_const blockBytes_length data]
      rfl
    · rw [Message.bytes, Nat.add_assoc, List.getElem?_append_right (Nat.le_add_right 3 _)]
      exact (congrArg _ (Nat.add_sub_cancel_left ..)).trans (flatMap_blockBytes_byte hb hj)

/-- Settles O50. -/
theorem reportBytes : Obligations.ReportBytes := by
  refine ⟨fun s => ⟨headerRecord_layout s, channelRecord_layout s, reportBytes_eq s, ?_, fun i b h => packBlocks_byte _ h,
    reportBytes_length s⟩, messageBytes_layout⟩
  simp [State.reportBlocks, packBlocks]

end Sys2Proof.Machine
end

section
/-! What parsing keeps of an image (O17). -/

namespace Sys2Proof.Machine

variable {image : List Byte}

/-! ### Extension records (R126, R127) -/

/-- The first budget among the extension records at `ps`. -/
def firstBudget (image : List Byte) (ps : List Nat) : Option Nat :=
  (ps.filter fun p => u16 image (p + 2) = 1 ∧ 6 ≤ u16 image p).head?.map fun p => u16 image (p + 4)

/-- The first cap among them, clamped to 32. -/
def firstCap (image : List Byte) (ps : List Nat) : Option Nat :=
  (ps.filter fun p => u16 image (p + 2) = 2 ∧ 5 ≤ u16 image p).head?.map fun p => min (u8 image (p + 4)) 32

theorem head?_filter_cons_map {α β : Type} (c : α → Bool) (f : α → β) (a : α) (l : List α) :
    ((a :: l).filter c).head?.map f = (([a].filter c).head?.map f).or ((l.filter c).head?.map f) := by
  cases h : c a <;> simp [h]

/-- The kept results once the extension records at `ps` have been taken. -/
def Kept.extended (image : List Byte) (ps : List Nat) (k : Kept) : Kept :=
  { k with budgetExt := k.budgetExt.or (firstBudget image ps), capExt := k.capExt.or (firstCap image ps) }

theorem firstBudget_cons (p : Nat) (ps : List Nat) :
    firstBudget image (p :: ps) = (firstBudget image [p]).or (firstBudget image ps) := head?_filter_cons_map ..

theorem firstCap_cons (p : Nat) (ps : List Nat) :
    firstCap image (p :: ps) = (firstCap image [p]).or (firstCap image ps) := head?_filter_cons_map ..

theorem takeExtension_eq (p : Nat) (k : Kept) :
    takeExtension image p (u16 image p) k = k.extended image [p] := by
  unfold takeExtension Kept.extended
  split
  next h1 =>
    have hcap : firstCap image [p] = none := by simp [firstCap, h1]
    rw [hcap, Option.or_none]
    split
    next h =>
      have hbudget : firstBudget image [p] = some (u16 image (p + 4)) := by simp [firstBudget, h1, h.1]
      rw [hbudget, h.2, Option.none_or]
    next h =>
      obtain hshort | hsome := not_and_or.mp h
      · have hbudget : firstBudget image [p] = none := by simp [firstBudget, hshort]
        rw [hbudget, Option.or_none]
      · obtain ⟨b, hb⟩ := Option.ne_none_iff_exists'.mp hsome
        rw [hb, Option.some_or, ← hb]
  next h2 =>
    have hbudget : firstBudget image [p] = none := by simp [firstBudget, h2]
    rw [hbudget, Option.or_none]
    split
    next h =>
      have hcap : firstCap image [p] = some (min (u8 image (p + 4)) 32) := by simp [firstCap, h2, h.1]
      rw [hcap, h.2, Option.none_or]
      rfl
    next h =>
      obtain hshort | hsome := not_and_or.mp h
      · have hcap : firstCap image [p] = none := by simp [firstCap, hshort]
        rw [hcap, Option.or_none]
      · obtain ⟨b, hb⟩ := Option.ne_none_iff_exists'.mp hsome
        rw [hb, Option.some_or, ← hb]
  next h1 h2 =>
    have hbudget : firstBudget image [p] = none := by simp [firstBudget, show u16 image (p + 2) ≠ 1 from h1]
    have hcap : firstCap image [p] = none := by simp [firstCap, show u16 image (p + 2) ≠ 2 from h2]
    rw [hbudget, hcap, Option.or_none, Option.or_none]

/-- Where the overrides begin once the chain of extension records has ended at byte `e`. -/
def chainEnd (image : List Byte) (e : Nat) : Option Nat :=
  if e + 2 ≤ image.length ∧ u16 image e = 0 then some (e + 2) else none

theorem parseExtensions_spec (fuel : Nat) : ∀ (a : Nat) (k : Kept), image.length < a + fuel + 2 →
    ∃ exts e, Chained (u16 image) (extensionSound image) a exts e ∧ ¬extensionSound image e ∧
      parseExtensions image fuel a k = (k.extended image exts, chainEnd image e) := by
  have hstop (a : Nat) (k : Kept) (hno : ¬extensionSound image a) :
      ∃ exts e, Chained (u16 image) (extensionSound image) a exts e ∧ ¬extensionSound image e ∧
        (k, chainEnd image a) = (k.extended image exts, chainEnd image e) :=
    ⟨[], a, rfl, hno, by simp [Kept.extended, firstBudget, firstCap]⟩
  induction fuel with
  | zero =>
    intro a k hfuel
    have := hstop a k fun h => by have := h.1; omega
    rwa [chainEnd, if_neg fun h => by have := h.1; omega] at this
  | succ fuel ih =>
    intro a k hfuel
    unfold parseExtensions
    split
    next hshort =>
      have := hstop a k fun h => by have := h.1; omega
      rwa [chainEnd, if_neg fun h => by have := h.1; omega] at this
    next hfits =>
      split
      next hzero =>
        have := hstop a k fun h => by have := h.2.1; omega
        rwa [chainEnd, if_pos ⟨by omega, hzero⟩] at this
      next hnonzero =>
        split
        next hsmall =>
          have := hstop a k fun h => by have := h.2.1; omega
          rwa [chainEnd, if_neg fun h => hnonzero h.2] at this
        next hlarge =>
          split
          next hlong =>
            have := hstop a k fun h => by have := h.2.2; omega
            rwa [chainEnd, if_neg fun h => hnonzero h.2] at this
          next hin =>
            obtain ⟨exts, e, hchain, hend, hk⟩ :=
              ih (a + u16 image a) (takeExtension image a (u16 image a) k) (by omega)
            refine ⟨a :: exts, e, ⟨rfl, ⟨by omega, by omega, by omega⟩, hchain⟩, hend, ?_⟩
            rw [hk, takeExtension_eq, Kept.extended, Kept.extended, Kept.extended, firstBudget_cons a exts, firstCap_cons a exts,
              Option.or_assoc, Option.or_assoc]

/-! ### Override records (R128) -/

theorem takeOverride_eq (p : Nat) {k : Kept} (hk : k.overrides.length ≤ 8) :
    takeOverride image p k = { k with overrides := (k.overrides ++ (overrideKept image p).toList).take 8 } := by
  have hsame : k = { k with overrides := (k.overrides ++ []).take 8 } := by
    rw [List.append_nil, List.take_of_length_le hk]
  unfold takeOverride overrideKept
  by_cases hchan : u8 image (p + 1) < 4
  · rw [dif_pos hchan]
    by_cases hroom : k.overrides.length < 8
    · have hfits (o : Override) : k.overrides ++ [o] = (k.overrides ++ [o]).take 8 :=
        (List.take_of_length_le (by simpa using hroom)).symm
      rw [dif_pos ⟨hchan, hroom⟩]
      split
      next h => rw [if_pos h, Option.toList_some, ← hfits]
      next h => rw [if_neg (by omega), if_pos h, Option.toList_some, ← hfits]
      next h1 h2 => rw [if_neg h1, if_neg h2]; exact hsame
    · rw [dif_neg fun h => hroom h.2, List.take_append_of_le_length (by omega), List.take_of_length_le hk]
  · rw [dif_neg fun h => hchan h.1, dif_neg hchan]
    exact hsame

/-- The overrides kept of `n` records from byte `a`, if there is room for them. -/
def overridesOf (image : List Byte) (a n : Nat) : List Override :=
  (((List.range n).map fun i => a + 4 * i).filter fun p => p + 4 ≤ image.length).filterMap (overrideKept image)

theorem overridesOf_succ (a n : Nat) :
    overridesOf image a (n + 1) =
      (if a + 4 ≤ image.length then (overrideKept image a).toList else []) ++ overridesOf image (a + 4) n := by
  have hshift : (List.range (n + 1)).map (fun i => a + 4 * i) = a :: (List.range n).map fun i => a + 4 + 4 * i := by
    rw [List.range_succ_eq_map, List.map_cons, List.map_map]
    exact congrArg _ (List.map_congr_left fun i _ => by simp only [Function.comp_apply]; omega)
  unfold overridesOf
  rw [hshift, List.filter_cons]
  split
  next h =>
    rw [if_pos (by simpa using h), List.filterMap_cons]
    cases overrideKept image a <;> rfl
  next h =>
    rw [if_neg (by simpa using h)]
    rfl

theorem overridesOf_eq_nil {a n : Nat} (h : image.length < a + 4) : overridesOf image a n = [] := by
  unfold overridesOf
  rw [List.filter_eq_nil_iff.mpr fun p hp => ?_, List.filterMap_nil]
  obtain ⟨i, -, rfl⟩ := List.mem_map.mp hp
  simp only [decide_eq_true_eq]
  omega

theorem take_append_take {α : Type} (n : Nat) (a b : List α) : (a.take n ++ b).take n = (a ++ b).take n := by
  rw [List.take_append, List.take_append, List.take_take, min_self, List.length_take]
  congr 2
  omega

theorem parseOverrides_spec (n : Nat) : ∀ (a : Nat) (k : Kept), k.overrides.length ≤ 8 → a ≤ image.length →
    parseOverrides image n a k =
      ({ k with overrides := (k.overrides ++ overridesOf image a n).take 8 },
        if a + 4 * n ≤ image.length then some (a + 4 * n) else none) := by
  induction n with
  | zero =>
    intro a k hk ha
    rw [parseOverrides, if_pos (by omega), overridesOf]
    simp [List.take_of_length_le hk]
  | succ n ih =>
    intro a k hk ha
    unfold parseOverrides
    split
    next h =>
      rw [if_neg (by omega), overridesOf_eq_nil h, List.append_nil, List.take_of_length_le hk]
    next h =>
      have htake := takeOverride_eq (image := image) a hk
      rw [ih (a + 4) _ (by rw [htake]; exact List.length_take_le ..) (by omega), htake, overridesOf_succ,
        if_pos (show a + 4 ≤ image.length by omega)]
      simp only [take_append_take, List.append_assoc, show a + 4 + 4 * n = a + 4 * (n + 1) by omega]

/-! ### Profile records (R129, R130) -/

theorem profileDropped_iff (p : Nat) : profileDropped image p = true ↔ ¬profileTaken image p := by
  unfold profileDropped profileTaken profileElementStarts elementOpCount elementDirection
  simp only [Bool.or_eq_true, beq_iff_eq, decide_eq_true_eq, List.any_eq_true, List.mem_map, List.mem_range]
  constructor
  · rintro ((h | h) | ⟨e, ⟨i, hi, rfl⟩, h⟩) ⟨h1, h2, h3⟩
    · omega
    · omega
    · have := h3 i hi
      omega
  · intro h
    by_contra hno
    obtain ⟨hcount, hel⟩ := not_or.mp hno
    refine h ⟨by omega, by omega, fun i hi => ?_⟩
    by_contra hbad
    exact hel ⟨_, ⟨i, hi, rfl⟩, by omega⟩

theorem decodeProfile_eq (p : Nat) : decodeProfile image p = profileKept image p := by
  unfold decodeProfile profileKept profileElementStarts
  rw [List.map_map, beq_eq_decide]
  rfl

/-- The profile kept of the record at byte `p`, if there is room for it. -/
def profilesOf (image : List Byte) (ps : List Nat) : List Profile :=
  (ps.filter fun p => profileTaken image p).map (profileKept image)

theorem takeProfile_eq (p : Nat) {k : Kept} (hk : k.profiles.length ≤ 16) :
    takeProfile image p k = { k with profiles := (k.profiles ++ profilesOf image [p]).take 16 } := by
  unfold takeProfile
  split
  next h =>
    have : profilesOf image [p] = [] := by simp [profilesOf, (profileDropped_iff p).mp h]
    rw [this, List.append_nil, List.take_of_length_le hk]
  next h =>
    have htaken : profileTaken image p := by rwa [profileDropped_iff, not_not] at h
    have : profilesOf image [p] = [profileKept image p] := by
      exact congrArg _ (List.filter_cons_of_pos (p := fun p => decide (profileTaken image p)) (decide_eq_true htaken))
    rw [this, decodeProfile_eq]
    split
    next hroom => rw [List.take_of_length_le (by rw [List.length_append]; exact hroom)]
    next hfull =>
      have hfull : 16 ≤ k.profiles.length := not_lt.mp hfull
      rw [List.take_append_of_le_length hfull, List.take_of_length_le hk]

theorem profilesOf_cons (p : Nat) (ps : List Nat) : profilesOf image (p :: ps) = profilesOf image [p] ++ profilesOf image ps := by
  unfold profilesOf
  rw [← List.map_append, ← List.filter_append]
  rfl

theorem parseProfiles_spec (n : Nat) : ∀ (a : Nat) (k : Kept), k.profiles.length ≤ 16 →
    ∃ profs e, Chained (u16 image) (profileSound image) a profs e ∧ profs.length ≤ n ∧
      (profs.length < n → ¬profileSound image e) ∧
      parseProfiles image n a k =
        ({ k with profiles := (k.profiles ++ profilesOf image profs).take 16 }, decide (profs.length = n)) := by
  induction n with
  | zero =>
    exact fun a k hk => ⟨[], a, rfl, le_rfl, fun h => absurd h (lt_irrefl _),
      by simp [parseProfiles, profilesOf, List.take_of_length_le hk]⟩
  | succ n ih =>
    intro a k hk
    have hstop (hno : ¬profileSound image a) :
        ∃ profs e, Chained (u16 image) (profileSound image) a profs e ∧ profs.length ≤ n + 1 ∧
          (profs.length < n + 1 → ¬profileSound image e) ∧
          (k, false) = ({ k with profiles := (k.profiles ++ profilesOf image profs).take 16 }, decide (profs.length = n + 1)) :=
      ⟨[], a, rfl, Nat.zero_le _, fun _ => hno, by simp [profilesOf, List.take_of_length_le hk]⟩
    unfold parseProfiles
    simp only
    split
    next h => exact hstop fun hs => by obtain ⟨h1, h2, -⟩ := hs; omega
    next h =>
      split
      next hlong => exact hstop fun hs => by have := hs.2.2.1; omega
      next hin =>
        split
        next hel => exact hstop fun hs => by have := hs.2.2.2 hel.1 hel.2.1; omega
        next hel =>
          have htake := takeProfile_eq (image := image) a hk
          obtain ⟨profs, e, hchain, hle, hend, hk'⟩ :=
            ih (a + u16 image a) (takeProfile image a k) (by rw [htake]; exact List.length_take_le ..)
          refine ⟨a :: profs, e, ⟨rfl, ⟨by omega, by omega, by omega, fun _ _ => by omega⟩, hchain⟩, Nat.succ_le_succ hle,
            fun hlt => hend (Nat.lt_of_succ_lt_succ hlt), ?_⟩
          rw [hk', htake, profilesOf_cons a profs]
          simp only [take_append_take, List.append_assoc, List.length_cons, Nat.add_right_cancel_iff]

theorem mem_profilesOf {ps : List Nat} {p : Profile} (h : p ∈ profilesOf image ps) :
    1 ≤ p.elements.length ∧ p.elements.length ≤ 12 ∧ ∀ e ∈ p.elements, 1 ≤ e.count ∧ e.count ≤ 4 ∧ e.ops.length = 4 := by
  obtain ⟨a, ha, rfl⟩ := List.mem_map.mp h
  obtain ⟨h1, h2, h3⟩ := of_decide_eq_true (List.mem_filter.mp ha).2
  refine ⟨by simpa [profileKept] using h1, by simpa [profileKept] using h2, fun e he => ?_⟩
  obtain ⟨i, hi, rfl⟩ := List.mem_map.mp he
  obtain ⟨hmin, hmax, -⟩ := h3 i (List.mem_range.mp hi)
  exact ⟨hmin, hmax, rfl⟩

/-! ### The image -/

theorem parseImage_spec (image : List Byte) :
    ∃ exts e o p, Chained (u16 image) (extensionSound image) 16 exts e ∧ ¬extensionSound image e ∧
      (parseImage image).1 = { headerFields image with
        budgetExt := firstBudget image exts, capExt := firstCap image exts, overrides := o, profiles := p } ∧
      (¬(e + 2 ≤ image.length ∧ u16 image e = 0) → (parseImage image).2 = false ∧ o = [] ∧ p = []) ∧
      (e + 2 ≤ image.length ∧ u16 image e = 0 →
        o = (overridesOf image (e + 2) (u8 image 9)).take 8 ∧
        (image.length < e + 2 + 4 * u8 image 9 → (parseImage image).2 = false ∧ p = []) ∧
        (e + 2 + 4 * u8 image 9 ≤ image.length →
          ∃ profs e3, Chained (u16 image) (profileSound image) (e + 2 + 4 * u8 image 9) profs e3 ∧
            profs.length ≤ u8 image 8 ∧ (profs.length < u8 image 8 → ¬profileSound image e3) ∧
            p = (profilesOf image profs).take 16 ∧ (parseImage image).2 = decide (profs.length = u8 image 8))) := by
  obtain ⟨exts, e, hchain, hend, hext⟩ := parseExtensions_spec (image := image) image.length 16 (headerFields image) (by omega)
  have hparse := rfl (a := parseImage image)
  conv_rhs at hparse => unfold parseImage
  rw [hext, chainEnd] at hparse
  by_cases hc : e + 2 ≤ image.length ∧ u16 image e = 0
  · rw [if_pos hc] at hparse
    simp only at hparse
    rw [parseOverrides_spec (u8 image 9) (e + 2) ((headerFields image).extended image exts) (Nat.zero_le 8) hc.1] at hparse
    by_cases hroom : e + 2 + 4 * u8 image 9 ≤ image.length
    · rw [if_pos hroom] at hparse
      simp only at hparse
      obtain ⟨profs, e3, hprofs, hle, hstop, hk⟩ := parseProfiles_spec (image := image) (u8 image 8) (e + 2 + 4 * u8 image 9)
        { (headerFields image).extended image exts with
          overrides := ((headerFields image).overrides ++ overridesOf image (e + 2) (u8 image 9)).take 8 } (Nat.zero_le 16)
      replace hparse := hparse.trans hk
      refine ⟨exts, e, _, _, hchain, hend, congrArg Prod.fst hparse, fun h => absurd hc h, fun _ => ⟨rfl, fun h => ?_, fun _ => ?_⟩⟩
      · omega
      · exact ⟨profs, e3, hprofs, hle, hstop, rfl, congrArg Prod.snd hparse⟩
    · rw [if_neg hroom] at hparse
      refine ⟨exts, e, _, [], hchain, hend, congrArg Prod.fst hparse, fun h => absurd hc h,
        fun _ => ⟨rfl, fun _ => ⟨congrArg Prod.snd hparse, rfl⟩, fun h => absurd h hroom⟩⟩
  · rw [if_neg hc] at hparse
    exact ⟨exts, e, [], [], hchain, hend, congrArg Prod.fst hparse, fun _ => ⟨congrArg Prod.snd hparse, rfl, rfl⟩,
      fun h => absurd h hc⟩

/-- Settles O17. -/
theorem parsedResults : Obligations.ParsedResults := by
  intro image k valid
  obtain ⟨exts, e, o, p, hchain, hend, hk, hbad, hgood⟩ := parseImage_spec image
  have hk : k = _ := hk
  have hprofiles : p.length ≤ 16 ∧ ∀ x ∈ p, ∃ ps, x ∈ profilesOf image ps := by
    by_cases hc : e + 2 ≤ image.length ∧ u16 image e = 0
    · obtain ⟨-, hshort, hlong⟩ := hgood hc
      by_cases hroom : e + 2 + 4 * u8 image 9 ≤ image.length
      · obtain ⟨profs, -, -, -, -, rfl, -⟩ := hlong hroom
        exact ⟨List.length_take_le .., fun x hx => ⟨profs, List.mem_of_mem_take hx⟩⟩
      · rw [(hshort (not_le.mp hroom)).2]
        exact ⟨Nat.zero_le _, nofun⟩
    · rw [(hbad hc).2.2]
      exact ⟨Nat.zero_le _, nofun⟩
  have hoverrides : o.length ≤ 8 := by
    by_cases hc : e + 2 ≤ image.length ∧ u16 image e = 0
    · rw [(hgood hc).1]
      exact List.length_take_le ..
    · rw [(hbad hc).2.1]
      exact Nat.zero_le _
  rw [hk]
  refine ⟨rfl, ?_, rfl, beq_eq_decide _ _, hprofiles.1, hoverrides, fun n hn => ?_, fun x hx => ?_,
    exts, e, hchain, hend, rfl, rfl, hbad, hgood⟩
  · show (if h : u8 image 10 < 4 then (⟨u8 image 10, h⟩ : Chan) else 0).val = _
    split
    · rfl
    · rfl
  · obtain ⟨a, -, rfl⟩ := Option.map_eq_some_iff.mp hn
    exact Nat.min_le_right _ _
  · obtain ⟨ps, hps⟩ := hprofiles.2 x hx
    exact mem_profilesOf hps

end Sys2Proof.Machine
end

section
/-! What an analysis makes of its bank (R55 to R65): the outcome of every candidate, for a bank that is column-faulted, a
truncated one, and one whose candidates take spares or wait for a claim (O32 to O35). -/

namespace Sys2Proof.Machine

/-! ### Outcomes -/

/-- What becomes of one candidate: the status and the target its record takes. -/
structure Outcome where
  row : Nat
  status : RecStatus
  target : Option Nat

/-- Each row takes the spare beside it. -/
def spareOutcomes (zs : List (Nat × Nat)) : List Outcome := zs.map fun z => ⟨z.1, .repairedSpare, some z.2⟩

/-- Each row takes one status, without a target. -/
def plainOutcomes (st : RecStatus) (rows : List Nat) : List Outcome := rows.map fun row => ⟨row, st, none⟩

/-- A record after the outcomes of a bank. -/
def FailRecord.decided (bank : Nat) (xs : List Outcome) (r : FailRecord) : FailRecord :=
  xs.foldl (fun r x => if r.hasKey bank x.row then { r with status := x.status, target := x.target } else r) r

/-- A Fail Log after the outcomes of a bank, each written in turn. -/
def FailLog.decided (bank : Nat) (xs : List Outcome) (l : FailLog) : FailLog :=
  xs.foldl (fun l x => l.setStatus bank x.row x.status x.target) l

section
variable {bank : Nat} {xs : List Outcome} {l : FailLog} {r : FailRecord}

theorem FailLog.decided_eq (bank : Nat) (xs : List Outcome) (l : FailLog) :
    l.decided bank xs = { l with records := l.records.map (FailRecord.decided bank xs) } := by
  induction xs generalizing l with
  | nil => exact (congrArg (fun x => { l with records := x }) (List.map_id _)).symm
  | cons x xs ih =>
    rw [FailLog.decided, List.foldl_cons, ← FailLog.decided, ih]
    simp only [FailLog.setStatus, List.map_map]
    rfl

theorem FailRecord.decided_of_not_mem (h : r.bank = bank → r.row ∉ xs.map Outcome.row) : r.decided bank xs = r := by
  induction xs with
  | nil => rfl
  | cons x xs ih =>
    simp only [List.map_cons, List.mem_cons, not_or] at h
    rw [FailRecord.decided, List.foldl_cons, if_neg fun hk => ?_]
    · exact ih fun hb => (h hb).2
    · obtain ⟨hb, hrow⟩ := (hasKey_iff ..).mp hk
      exact (h hb).1 hrow

theorem FailRecord.decided_of_mem {x : Outcome} (hnodup : (xs.map Outcome.row).Nodup) (hx : x ∈ xs) (hb : r.bank = bank)
    (hrow : r.row = x.row) : r.decided bank xs = { r with status := x.status, target := x.target } := by
  induction xs with
  | nil => cases hx
  | cons y ys ih =>
    rw [List.map_cons, List.nodup_cons] at hnodup
    rw [FailRecord.decided, List.foldl_cons]
    obtain rfl | hx := List.mem_cons.mp hx
    · rw [if_pos ((hasKey_iff ..).mpr ⟨hb, hrow⟩)]
      exact decided_of_not_mem fun _ => hrow ▸ hnodup.1
    · have hne : r.row ≠ y.row := fun h => hnodup.1 (h ▸ hrow ▸ List.mem_map_of_mem hx)
      rw [if_neg fun hk => hne ((hasKey_iff ..).mp hk).2]
      exact ih hnodup.2 hx

theorem pendingOf_eq (l : FailLog) (bank : Nat) :
    l.pendingOf bank = l.records.filter fun r => r.bank = bank ∧ r.status = .pending :=
  List.filter_congr fun r _ => by rw [Bool.decide_and, beq_eq_decide, beq_eq_decide]

/-- The rows decided are PENDING no more. -/
theorem pendingOf_decided (hnodup : (xs.map Outcome.row).Nodup) (hst : ∀ x ∈ xs, x.status ≠ .pending) :
    (l.decided bank xs).pendingOf bank = (l.pendingOf bank).filter fun r => r.row ∉ xs.map Outcome.row := by
  rw [FailLog.decided_eq, pendingOf_eq, pendingOf_eq, List.filter_filter, List.filter_map]
  have hsame (r : FailRecord) (h : r.row ∉ xs.map Outcome.row) : r.decided bank xs = r :=
    FailRecord.decided_of_not_mem fun _ => h
  rw [List.filter_congr (q := fun r => decide (r.row ∉ xs.map Outcome.row) && decide (r.bank = bank ∧ r.status = .pending))
    fun r _ => ?_]
  · refine (List.map_congr_left fun r hr => ?_).trans (List.map_id _)
    have hr := (List.mem_filter.mp hr).2
    rw [Bool.and_eq_true, decide_eq_true_eq] at hr
    exact hsame r hr.1
  · rw [Function.comp_apply]
    by_cases hrow : r.row ∈ xs.map Outcome.row
    · obtain ⟨x, hx, hxr⟩ := List.mem_map.mp hrow
      rw [decide_eq_false (not_not.mpr hrow), Bool.false_and, decide_eq_false_iff_not]
      rintro ⟨hb, hp⟩
      by_cases hbank : r.bank = bank
      · rw [FailRecord.decided_of_mem hnodup hx hbank hxr.symm] at hp
        exact hst x hx hp
      · rw [FailRecord.decided_of_not_mem fun h => absurd h hbank] at hb
        exact hbank hb
    · rw [hsame r hrow, decide_eq_true hrow, Bool.true_and]

end

/-! ### The spares given out (R58) -/

/-- The spares a pass may give out: the good and free ones, when it gives out any. -/
def Analysis.available (a : Analysis) (gives : Bool) (ch : Channel) : List Nat :=
  if gives then a.goodSpares ch.log ch.spares else []

/-- The rows of `zs` take the spares beside them, each with its remap entry (R63). -/
def Channel.spared (ch : Channel) (bank : Nat) (zs : List (Nat × Nat)) : Channel :=
  { ch with log := ch.log.decided bank (spareOutcomes zs),
            remap := ch.remap ++ zs.map fun z => { bank := bank, row := z.1, target := .spare z.2 } }

section
variable {a : Analysis} {gives : Bool} {ch : Channel}

theorem goodSpare_eq_available (a : Analysis) (gives : Bool) (ch : Channel) :
    (if gives = true then a.goodSpare ch.log ch.spares else none) = (a.available gives ch).head? := by
  unfold Analysis.available
  split
  · exact goodSpare_eq_head? ..
  · rfl

/-- A spare given out is available no more. -/
theorem available_repairSpare {row k : Nat} {rest : List Nat} (h : a.available gives ch = k :: rest) :
    { a with given := k :: a.given }.available gives (ch.repairSpare a.bank row k) = rest := by
  unfold Analysis.available at *
  split at h
  next hg =>
    rw [if_pos hg]
    have hnodup : (k :: rest).Nodup := h ▸ List.nodup_range.filter _
    have hfilter : { a with given := k :: a.given }.goodSpares (ch.repairSpare a.bank row k).log (ch.repairSpare a.bank row k).spares =
        (a.goodSpares ch.log ch.spares).filter fun j => j ≠ k := by
      unfold Analysis.goodSpares
      rw [List.filter_filter]
      refine List.filter_congr fun j _ => ?_
      simp only [repairSpare_log, setStatus_failedSpares, List.mem_cons, not_or, Bool.decide_and]
      rw [Bool.and_left_comm]
    rw [hfilter, h, List.filter_cons_of_neg (by simp)]
    exact List.filter_eq_self.mpr fun j hj => by
      rw [decide_eq_true_eq]
      rintro rfl
      exact (List.nodup_cons.mp hnodup).1 hj
  next => cases h

theorem spared_cons (ch : Channel) (bank row k : Nat) (zs : List (Nat × Nat)) :
    (ch.repairSpare bank row k).spared bank zs = ch.spared bank ((row, k) :: zs) := by
  simp only [Channel.spared, repairSpare_remap, List.append_assoc, List.map_cons, List.singleton_append]
  rfl

theorem spared_nil (ch : Channel) (bank : Nat) : ch.spared bank [] = ch := by
  simp [Channel.spared, spareOutcomes, FailLog.decided]

/-! ### The marginal pass (R61) -/

/-- The marginal candidates take the spares available in their order, and the others become MARGINAL. -/
theorem marginalPass_eq (rows : List Nat) : ∀ (a : Analysis) (ch : Channel) (spares : List Nat),
    a.available (a.complete && a.repairMarginal) ch = spares →
    marginalPass rows a ch =
      { ch.spared a.bank (rows.zip spares) with
        log := (ch.spared a.bank (rows.zip spares)).log.decided a.bank (plainOutcomes .marginal (rows.drop spares.length)),
        analyser := some { a with
          phase := .marginal, candidates := [], given := ((rows.zip spares).map Prod.snd).reverse ++ a.given } } := by
  induction rows with
  | nil => intro a ch spares _; simp [marginalPass, spared_nil, plainOutcomes, FailLog.decided]
  | cons row rest ih =>
    intro a ch spares hspares
    rw [marginalPass, goodSpare_eq_available, hspares]
    cases spares with
    | nil =>
      simp only [List.head?_nil]
      have hnext : a.available (a.complete && a.repairMarginal) { ch with log := ch.log.setStatus a.bank row .marginal none } = [] :=
        hspares
      rw [ih _ _ _ hnext]
      simp only [List.zip_nil_right, spared_nil]
      rfl
    | cons k spares =>
      simp only [List.head?_cons]
      rw [ih _ _ _ (available_repairSpare hspares), spared_cons]
      simp

/-! ### The primary pass (R57 to R60) -/

/-- The first candidates take the spares available in their order. -/
theorem primaryPass_spared (rows : List Nat) : ∀ (a : Analysis) (ch : Channel) (spares : List Nat),
    a.available a.complete ch = spares →
    primaryPass rows a ch =
      primaryPass (rows.drop spares.length) { a with given := (spares.take rows.length).reverse ++ a.given }
        (ch.spared a.bank (rows.zip spares)) ∧
    { a with given := (spares.take rows.length).reverse ++ a.given }.available a.complete (ch.spared a.bank (rows.zip spares)) =
      spares.drop rows.length := by
  induction rows with
  | nil =>
    intro a ch spares hspares
    simp only [List.drop_nil, List.length_nil, List.take_zero, List.reverse_nil, List.nil_append, List.zip_nil_left, spared_nil,
      List.drop_zero]
    exact ⟨trivial, hspares⟩
  | cons row rest ih =>
    intro a ch spares hspares
    cases spares with
    | nil =>
      simp only [List.length_nil, List.drop_zero, List.take_nil, List.reverse_nil, List.nil_append, List.zip_nil_right, spared_nil,
        List.drop_nil]
      exact ⟨trivial, hspares⟩
    | cons k spares =>
      obtain ⟨hpass, havail⟩ := ih _ _ _ (available_repairSpare (row := row) hspares)
      rw [primaryPass, goodSpare_eq_available, hspares]
      simp only [List.head?_cons]
      rw [hpass, spared_cons] 
      rw [spared_cons] at havail
      simp only [List.length_cons, List.drop_succ_cons, List.take_succ_cons, List.reverse_cons, List.append_assoc,
        List.singleton_append, List.zip_cons_cons]
      exact ⟨trivial, havail⟩

/-- The candidates for which there is neither a spare nor room under the cap. -/
def Channel.unrepaired (ch : Channel) (bank : Nat) (rows : List Nat) : Channel :=
  { ch with log := ch.log.decided bank (plainOutcomes .unrepairable rows),
            seq := { ch.seq with causes := { ch.seq.causes with
              unrepairable := ch.seq.causes.unrepairable || !rows.isEmpty } } }

theorem primaryPass_unrepaired (rows : List Nat) : ∀ (ch : Channel), a.available a.complete ch = [] → a.cap ≤ heldEntries ch.remap →
    primaryPass rows a ch = beginMarginal a (ch.unrepaired a.bank rows) := by
  induction rows with
  | nil => intro ch _ _; simp [primaryPass, Channel.unrepaired, plainOutcomes, FailLog.decided]
  | cons row rest ih =>
    intro ch hnone hcap
    rw [primaryPass, goodSpare_eq_available, hnone]
    simp only [List.head?_nil]
    rw [if_neg (not_lt.mpr hcap), ih (ch.markUnrepairable a.bank row) hnone hcap]
    simp [Channel.unrepaired, Channel.markUnrepairable, plainOutcomes, FailLog.decided]

theorem primaryPass_claims {row : Nat} {rest : List Nat} (hnone : a.available a.complete ch = [])
    (hroom : heldEntries ch.remap < a.cap) :
    primaryPass (row :: rest) a ch = { ch with analyser := some { a with phase := .claiming, candidates := row :: rest } } := by
  rw [primaryPass, goodSpare_eq_available, hnone]
  exact if_pos hroom

end

/-! ### A bank that is not column-faulted -/

theorem zip_fst_append_drop (rows spares : List Nat) :
    (rows.zip spares).map Prod.fst ++ rows.drop spares.length = rows := by
  induction rows generalizing spares with
  | nil => simp
  | cons row rest ih =>
    cases spares with
    | nil => simp
    | cons k spares => simp [ih]

theorem zip_fst_eq_take (rows spares : List Nat) : (rows.zip spares).map Prod.fst = rows.take spares.length :=
  List.append_cancel_right ((zip_fst_append_drop rows spares).trans (List.take_append_drop ..).symm)

theorem spareOutcomes_rows (zs : List (Nat × Nat)) : (spareOutcomes zs).map Outcome.row = zs.map Prod.fst := by
  simp [spareOutcomes]

theorem plainOutcomes_rows (st : RecStatus) (rows : List Nat) : (plainOutcomes st rows).map Outcome.row = rows := by
  rw [plainOutcomes, List.map_map]
  exact List.map_id _

theorem heldEntries_spared (ch : Channel) (bank : Nat) (zs : List (Nat × Nat)) :
    heldEntries (ch.spared bank zs).remap = heldEntries ch.remap := by
  unfold heldEntries Channel.spared
  rw [List.filter_append, List.filter_eq_nil_iff (l := zs.map _) |>.mpr fun e he => ?_, List.append_nil]
  obtain ⟨z, -, rfl⟩ := List.mem_map.mp he
  exact Bool.false_ne_true

theorem decided_failedSpares (bank : Nat) (xs : List Outcome) (l : FailLog) :
    (l.decided bank xs).failedSpares = l.failedSpares := by rw [FailLog.decided_eq]

theorem decided_append (bank : Nat) (xs ys : List Outcome) (l : FailLog) :
    (l.decided bank xs).decided bank ys = l.decided bank (xs ++ ys) := List.foldl_append.symm

theorem forall₂_decided {R : FailRecord → FailRecord → Prop} {bank : Nat} {xs : List Outcome} {l : FailLog}
    (h : ∀ r ∈ l.records, R r (r.decided bank xs)) : List.Forall₂ R l.records (l.decided bank xs).records := by
  rw [FailLog.decided_eq]
  exact List.forall₂_map_right_iff.mpr (List.forall₂_same.mpr h)

section
variable {ch : Channel} {a : Analysis} {primary : List Nat}

/-- A record with the key of a PENDING record is PENDING, keys being unique (R38). -/
theorem pending_of_key {l : FailLog} (hkeys : (l.records.map fun r => (r.bank, r.row)).Nodup) {r : FailRecord} {bank : Nat}
    (hr : r ∈ l.records) (hb : r.bank = bank) (hp : l.Pending bank r.row) : r.bank = bank ∧ r.status = .pending := by
  obtain ⟨r', hr', hb', hrow, hs⟩ := hp
  have hsame := List.inj_on_of_nodup_map hkeys hr' hr (by rw [hb', hrow, hb])
  exact ⟨hb, hsame ▸ hs⟩

/-- The primary candidates' outcomes: the first take the spares, the others become UNREPAIRABLE. -/
def primaryOutcomes (primary spares : List Nat) : List Outcome :=
  spareOutcomes (primary.zip spares) ++ plainOutcomes .unrepairable (primary.drop spares.length)

/-- The marginal candidates' outcomes: the first take the spares, the others become MARGINAL. -/
def marginalOutcomes (rows spares : List Nat) : List Outcome :=
  spareOutcomes (rows.zip spares) ++ plainOutcomes .marginal (rows.drop spares.length)

theorem primaryOutcomes_rows (primary spares : List Nat) : (primaryOutcomes primary spares).map Outcome.row = primary := by
  rw [primaryOutcomes, List.map_append, spareOutcomes_rows, plainOutcomes_rows, zip_fst_append_drop]

theorem marginalOutcomes_rows (rows spares : List Nat) : (marginalOutcomes rows spares).map Outcome.row = rows := by
  rw [marginalOutcomes, List.map_append, spareOutcomes_rows, plainOutcomes_rows, zip_fst_append_drop]

theorem primaryOutcomes_status (primary spares : List Nat) : ∀ x ∈ primaryOutcomes primary spares, x.status ≠ .pending := by
  intro x hx
  obtain hx | hx := List.mem_append.mp hx
  · obtain ⟨z, -, rfl⟩ := List.mem_map.mp hx
    exact nofun
  · obtain ⟨row, -, rfl⟩ := List.mem_map.mp hx
    exact nofun

theorem mem_spareOutcomes {zs : List (Nat × Nat)} {row k : Nat} (h : (row, k) ∈ zs) :
    (⟨row, .repairedSpare, some k⟩ : Outcome) ∈ spareOutcomes zs := List.mem_map.mpr ⟨_, h, rfl⟩

theorem mem_plainOutcomes {st : RecStatus} {rows : List Nat} {row : Nat} (h : row ∈ rows) :
    (⟨row, st, none⟩ : Outcome) ∈ plainOutcomes st rows := List.mem_map_of_mem h

/-- The rows that the marginal pass treats once the primary candidates are decided. -/
def laterRows (l : FailLog) (bank : Nat) (primary : List Nat) : List Nat :=
  (byCount ((l.pendingOf bank).filter fun r => r.row ∉ primary)).map FailRecord.row

/-- A pass whose candidates wait for a claim, or come to the analysis' end (R58 to R61). -/
theorem primaryPass_closed (hnodup : primary.Nodup) :
    let spares := a.available a.complete ch
    let left := primary.drop spares.length
    let given := (spares.take primary.length).reverse ++ a.given
    let later := laterRows ch.log a.bank primary
    let spares2 := if a.repairMarginal = true then spares.drop primary.length else []
    (left ≠ [] → heldEntries ch.remap < a.cap →
      primaryPass primary a ch = { ch.spared a.bank (primary.zip spares) with
        analyser := some { a with phase := .claiming, candidates := left, given := given } }) ∧
    (left = [] ∨ a.cap ≤ heldEntries ch.remap →
      primaryPass primary a ch = { ch with
        log := ch.log.decided a.bank (primaryOutcomes primary spares ++ marginalOutcomes later spares2),
        remap := ch.remap ++ (primary.zip spares ++ later.zip spares2).map fun z =>
          { bank := a.bank, row := z.1, target := .spare z.2 },
        seq := { ch.seq with causes := { ch.seq.causes with unrepairable := ch.seq.causes.unrepairable || !left.isEmpty } },
        analyser := some { a with
          phase := .marginal, candidates := [], given := ((later.zip spares2).map Prod.snd).reverse ++ given } }) := by
  intro spares left given later spares2
  obtain ⟨hpass, havail⟩ := primaryPass_spared primary a ch spares rfl
  have hnone (h : left ≠ []) : spares.drop primary.length = [] := by
    refine List.drop_eq_nil_of_le (le_of_not_gt fun hlt => h (List.drop_eq_nil_of_le hlt.le))
  refine ⟨fun hleft hroom => ?_, fun hend => ?_⟩
  · rw [hpass]
    rw [hnone hleft] at havail
    obtain ⟨row, rest, heq⟩ := List.exists_cons_of_ne_nil hleft
    rw [show primary.drop spares.length = row :: rest from heq]
    refine (primaryPass_claims havail (by rwa [heldEntries_spared])).trans ?_
    rw [← heq]
  · have hunrepaired : primaryPass left { a with given := given } (ch.spared a.bank (primary.zip spares)) =
        beginMarginal { a with given := given } ((ch.spared a.bank (primary.zip spares)).unrepaired a.bank left) := by
      by_cases hleft : left = []
      · rw [hleft]
        simp [primaryPass, Channel.unrepaired, plainOutcomes, FailLog.decided]
      · rw [hnone hleft] at havail
        exact primaryPass_unrepaired left _ havail (by rw [heldEntries_spared]; exact hend.resolve_left hleft)
    have hrows : ((ch.spared a.bank (primary.zip spares)).unrepaired a.bank left).marginalRows a.bank = later := by
      unfold Channel.marginalRows
      rw [show ((ch.spared a.bank (primary.zip spares)).unrepaired a.bank left).log =
        ch.log.decided a.bank (primaryOutcomes primary spares) from decided_append ..,
        pendingOf_decided (by rwa [primaryOutcomes_rows]) (primaryOutcomes_status primary spares), primaryOutcomes_rows]
      rfl
    have hspares2 : { a with given := given }.available (a.complete && a.repairMarginal)
        ((ch.spared a.bank (primary.zip spares)).unrepaired a.bank left) = spares2 := by
      show _ = if _ then _ else _
      rw [← havail]
      unfold Analysis.available
      cases a.complete with
      | false => simp
      | true =>
        have hgood : { a with given := given }.goodSpares
            ((ch.spared a.bank (primary.zip spares)).unrepaired a.bank left).log ch.spares =
            { a with given := given }.goodSpares (ch.spared a.bank (primary.zip spares)).log ch.spares := by
          unfold Analysis.goodSpares
          rw [show ((ch.spared a.bank (primary.zip spares)).unrepaired a.bank left).log.failedSpares = _ from
            decided_failedSpares ..]
        cases a.repairMarginal with
        | false => rfl
        | true => exact hgood
    rw [hpass, hunrepaired, beginMarginal_eq, hrows, marginalPass_eq _ _ _ _ hspares2]
    simp only [Channel.spared, Channel.unrepaired, decided_append, List.append_assoc, List.map_append, primaryOutcomes,
      marginalOutcomes]
    rfl

theorem later_pending (hkeys : (ch.log.records.map fun r => (r.bank, r.row)).Nodup) :
    (laterRows ch.log a.bank primary).Nodup ∧ ∀ row ∈ laterRows ch.log a.bank primary, ch.log.Pending a.bank row ∧ row ∉ primary := by
  obtain ⟨hnodup, hp⟩ := candidates_pending hkeys a.bank fun r => r.row ∉ primary
  refine ⟨hnodup, fun row hrow => ⟨hp row hrow, ?_⟩⟩
  obtain ⟨r, hr, rfl⟩ := List.mem_map.mp hrow
  simpa using (List.mem_filter.mp ((byCount_perm _).mem_iff.mp hr)).2

theorem mem_laterRows {r : FailRecord} (hr : r ∈ ch.log.records) (hp : r.bank = a.bank ∧ r.status = .pending)
    (hrow : r.row ∉ primary) : r.row ∈ laterRows ch.log a.bank primary :=
  List.mem_map_of_mem ((byCount_perm _).mem_iff.mpr
    (List.mem_filter.mpr ⟨mem_pendingOf.mpr ⟨hr, hp⟩, decide_eq_true hrow⟩))

/-- What the passes of an analysis make of its channel. -/
theorem primaryPass_treated (hkeys : (ch.log.records.map fun r => (r.bank, r.row)).Nodup) (hnodup : primary.Nodup)
    (hp : ∀ row ∈ primary, ch.log.Pending a.bank row) : Treated ch a primary (primaryPass primary a ch) := by
  obtain ⟨hclaims, hends⟩ := primaryPass_closed (ch := ch) (a := a) hnodup
  obtain ⟨hlater, hlp⟩ := later_pending (a := a) (primary := primary) hkeys
  unfold Treated
  intro isPending recs marginal spares held entry left given
  have hmarginal : marginal = laterRows ch.log a.bank primary := by
    show (byCount (recs.filter _)).map _ = _
    rw [laterRows, pendingOf_eq]
  by_cases hroom : left ≠ [] ∧ held < a.cap
  · have hout := hclaims hroom.1 hroom.2
    have hlog : (primaryPass primary a ch).log = ch.log.decided a.bank (spareOutcomes (primary.zip spares)) :=
      congrArg Channel.log hout
    have hrows : ((spareOutcomes (primary.zip spares)).map Outcome.row).Nodup := by
      rw [spareOutcomes_rows]
      exact List.Nodup.sublist (List.sublist_append_left _ (primary.drop spares.length)) (by rwa [zip_fst_append_drop])
    refine ⟨by rw [hout]; rfl, by rw [hlog, decided_failedSpares], fun _ _ => ⟨by rw [hout]; rfl, by rw [hout]; rfl,
      by rw [hout]; rfl, ?_⟩, fun h => absurd hroom (by rw [not_and_or, not_not, not_lt]; exact h)⟩
    rw [hlog]
    refine forall₂_decided fun r hr => ⟨fun k hr hk => ?_, fun h => ?_⟩
    · exact FailRecord.decided_of_mem hrows (mem_spareOutcomes hk) hr.1 rfl
    · refine FailRecord.decided_of_not_mem fun hb hrow => ?_
      have htake : (primary.zip spares).map Prod.fst = primary.take spares.length := zip_fst_eq_take primary spares
      rw [spareOutcomes_rows, htake] at hrow
      exact h.elim (fun hn => hn (pending_of_key hkeys hr hb (hp _ (List.mem_of_mem_take hrow)))) fun hn => hn hrow
  · have hend : left = [] ∨ a.cap ≤ held := by rwa [not_and_or, not_not, not_lt] at hroom
    have hout := hends hend
    obtain ⟨spares2, hspares2⟩ : ∃ x, (if a.repairMarginal = true then spares.drop primary.length else []) = x := ⟨_, rfl⟩
    rw [show (if a.repairMarginal = true then (a.available a.complete ch).drop primary.length else []) = spares2 from hspares2] at hout
    have hlog : (primaryPass primary a ch).log = ch.log.decided a.bank
        (primaryOutcomes primary spares ++ marginalOutcomes marginal spares2) := by rw [hmarginal]; exact congrArg Channel.log hout
    refine ⟨by rw [hout], by rw [hlog, decided_failedSpares], fun h1 h2 => absurd ⟨h1, h2⟩ hroom, fun _ => ?_⟩
    intro more
    have hmore : more = marginal.zip spares2 := by
      rw [← hspares2]
      show (if _ then _ else _) = _
      split
      · rfl
      · exact List.zip_nil_right.symm
    rw [hmore, hlog]
    rw [← hmarginal] at hout hlater hlp
    refine ⟨by rw [hout]; rfl, by rw [hout]; rfl, by rw [hout]; rfl, ?_⟩
    have hrows : ((primaryOutcomes primary spares ++ marginalOutcomes marginal spares2).map Outcome.row) = primary ++ marginal := by
      rw [List.map_append, primaryOutcomes_rows, marginalOutcomes_rows]
    have hnd : ((primaryOutcomes primary spares ++ marginalOutcomes marginal spares2).map Outcome.row).Nodup := by
      rw [hrows, List.nodup_append']
      exact ⟨hnodup, hlater, fun row h1 h2 => (hlp row h2).2 h1⟩
    refine forall₂_decided fun r hr => ⟨fun k hpend hk => ?_, fun hpend hleft => ?_, fun hpend hprim hm => ?_, fun hn => ?_⟩
    · refine FailRecord.decided_of_mem (x := ⟨r.row, .repairedSpare, some k⟩) hnd ?_ hpend.1 rfl
      exact (List.mem_append.mp hk).elim
        (fun h => List.mem_append_left _ (List.mem_append_left _ (mem_spareOutcomes h)))
        fun h => List.mem_append_right _ (List.mem_append_left _ (mem_spareOutcomes h))
    · exact FailRecord.decided_of_mem (x := ⟨r.row, .unrepairable, none⟩) hnd
        (List.mem_append_left _ (List.mem_append_right _ (mem_plainOutcomes hleft))) hpend.1 rfl
    · refine FailRecord.decided_of_mem (x := ⟨r.row, .marginal, none⟩) hnd
        (List.mem_append_right _ (List.mem_append_right _ (mem_plainOutcomes ?_))) hpend.1 rfl
      have hmem : r.row ∈ marginal := hmarginal ▸ mem_laterRows hr hpend hprim
      rw [← zip_fst_append_drop marginal spares2] at hmem
      exact (List.mem_append.mp hmem).resolve_left hm
    · refine FailRecord.decided_of_not_mem fun hb hrow => hn (pending_of_key hkeys hr hb ?_)
      rw [hrows] at hrow
      exact (List.mem_append.mp hrow).elim (hp _) fun h => (hlp _ h).1

/-- A record that is decided before the passes begin stays so. -/
theorem Treated.mem_of_decided {out : Channel} (h : Treated ch a primary out) {r : FailRecord} (hr : r ∈ ch.log.records)
    (hs : r.status ≠ .pending) : r ∈ out.log.records := by
  obtain ⟨-, -, hclaims, hends⟩ := h
  have hkeep {R : FailRecord → FailRecord → Prop} (hall : List.Forall₂ R ch.log.records out.log.records)
      (hR : ∀ r', R r r' → r' = r) : r ∈ out.log.records := by
    obtain ⟨i, hi, rfl⟩ := List.getElem_of_mem hr
    have hlen := hall.length_eq
    exact hR _ (hall.get hi (by omega)) ▸ List.getElem_mem _
  by_cases hroom : primary.drop (a.available a.complete ch).length ≠ [] ∧ (ch.remap.filter fun x => x.target.isShadow).length < a.cap
  · exact hkeep (hclaims hroom.1 hroom.2).2.2.2 fun r' h => h.2 (.inl fun hp => hs hp.2)
  · refine hkeep (hends ?_).2.2.2 fun r' h => h.2.2.2 fun hp => hs hp.2
    rwa [not_and_or, not_not, not_lt] at hroom

end

/-! ### The column check (R55, R56) -/

theorem columnFaulted_iff (recs : List FailRecord) (c : Nat) :
    columnFaulted recs c = true ↔
      ∃ x, (∃ r ∈ recs, x ∈ r.columns) ∧ c ≤ (recs.filter fun r => x ∈ r.columns).length := by
  unfold columnFaulted columnRows
  simp only [List.any_eq_true, decide_eq_true_eq, List.contains_eq_mem]
  exact ⟨fun ⟨r, hr, x, hx, h⟩ => ⟨x, ⟨r, hr, hx⟩, h⟩, fun ⟨x, ⟨r, hr, hx⟩, h⟩ => ⟨r, hr, x, hx, h⟩⟩

section
variable {ch : Channel} {bank : Nat} {complete : Bool} {cap : Nat}

theorem beginAnalysis_of_faulted (h : columnFaulted (ch.log.pendingOf bank) ch.seq.columnThreshold = true) :
    ch.beginAnalysis bank complete cap =
      { ch with log := ch.log.faultBank bank,
                seq := { ch.seq with causes := { ch.seq.causes with column := true } },
                analyser := some { ch.analysisContext bank complete cap with phase := .checking } } := if_pos h

theorem beginAnalysis_of_sound (h : ¬columnFaulted (ch.log.pendingOf bank) ch.seq.columnThreshold = true) :
    ch.beginAnalysis bank complete cap =
      primaryPass ((byCount ((ch.log.pendingOf bank).filter fun r => decide (ch.seq.threshold ≤ r.count))).map FailRecord.row)
        (ch.analysisContext bank complete cap) ch := if_neg h

theorem faultBank_eq (l : FailLog) (bank : Nat) :
    l.faultBank bank = { l with records := l.records.map fun r =>
      if r.bank = bank ∧ r.status = .pending then { r with status := .column, target := none } else r } := by
  unfold FailLog.faultBank
  simp only [Bool.and_eq_true, beq_iff_eq]

theorem beginAnalysis_treated (hkeys : (ch.log.records.map fun r => (r.bank, r.row)).Nodup)
    (h : ¬columnFaulted (ch.log.pendingOf bank) ch.seq.columnThreshold = true) :
    Treated ch (ch.analysisContext bank complete cap)
      ((byCount ((ch.log.pendingOf bank).filter fun r => decide (ch.seq.threshold ≤ r.count))).map FailRecord.row)
      (ch.beginAnalysis bank complete cap) := by
  rw [beginAnalysis_of_sound h]
  obtain ⟨hnodup, hp⟩ := candidates_pending hkeys bank fun r => decide (ch.seq.threshold ≤ r.count)
  exact primaryPass_treated hkeys hnodup hp

/-- The passes note no cause COLUMN and give no record that status. -/
def ColumnStands (ch0 : Channel) (_ : List Nat) (_ : Analysis) (ch : Channel) : Prop :=
  ch.seq.causes.column = ch0.seq.causes.column ∧ ∀ r ∈ ch.log.records, r.status = .column → r ∈ ch0.log.records

theorem ColumnStands.setStatus {ch0 ch : Channel} {rows rows' : List Nat} {a a' : Analysis} (h : ColumnStands ch0 rows a ch)
    {row : Nat} {st : RecStatus} {x : Option Nat} {out : Channel} (hst : st ≠ .column)
    (hcause : out.seq.causes.column = ch.seq.causes.column) (hlog : out.log = ch.log.setStatus bank row st x) :
    ColumnStands ch0 rows' a' out := by
  refine ⟨hcause.trans h.1, fun r hr hs => ?_⟩
  rw [hlog] at hr
  obtain ⟨r, hmem, rfl⟩ := List.mem_map.mp hr
  split at hs
  next => exact absurd hs hst
  next hk =>
    rw [if_neg hk]
    exact h.2 r hmem hs

theorem treatable_columnStands (ch0 : Channel) : Treatable (ColumnStands ch0) where
  spare _ _ h := h.setStatus (by decide) rfl rfl
  unrepairable h := h.setStatus (by decide) rfl rfl
  marginal h := h.setStatus (by decide) rfl rfl
  refill h := h

/-- Settles O33. -/
theorem columnFaultedBank : Obligations.ColumnFaultedBank := by
  refine ⟨fun q => ⟨fun k p h => ?_, fun h => ?_⟩, fun ch bank complete cap => ?_⟩
  · simp [Sequencer.threshold, Sequencer.columnThreshold, Sequencer.repairsMarginal, h]
  · simp [Sequencer.threshold, Sequencer.columnThreshold, Sequencer.repairsMarginal, h, Config.defaultT, Config.defaultC]
  · intro recs faulted out
    have hfaulted : columnFaulted (ch.log.pendingOf bank) ch.seq.columnThreshold = true ↔ faulted := by
      rw [pendingOf_eq]
      exact columnFaulted_iff ..
    refine ⟨fun h => ?_, fun h => ?_⟩
    · have hout : out = _ := beginAnalysis_of_faulted (hfaulted.mpr h)
      rw [hout, faultBank_eq]
      exact ⟨rfl, rfl, rfl, _, rfl, rfl⟩
    · have hout : out = _ := beginAnalysis_of_sound (mt hfaulted.mp h)
      rw [hout]
      obtain ⟨a', ch', rows', hkeep, ⟨-, -, heq⟩ | ⟨-, heq⟩⟩ :=
        (treatable_columnStands ch).primaryPass _ (ch.analysisContext bank complete cap) ch ⟨rfl, fun r hr _ => hr⟩
      · rw [heq]; exact hkeep
      · rw [heq]; exact hkeep

/-- Settles O32. -/
theorem candidateOrderAndSpare : Obligations.CandidateOrderAndSpare := by
  refine ⟨fun l => ⟨byCount_perm l, byCount_sorted l, byCount_filter l⟩,
    fun a l spares => ⟨fun k => goodSpare_eq_some_iff a l spares k, goodSpare_eq_none_iff a l spares⟩,
    fun ch bank complete cap hkeys => ?_⟩
  intro recs hsound
  have := beginAnalysis_treated (complete := complete) (cap := cap) hkeys
    (mt (columnFaulted_iff ..).mp (by rw [pendingOf_eq]; exact hsound))
  rwa [pendingOf_eq] at this

/-! ### A truncated bank (R62) -/

/-- No spare has been given out. -/
def NoneGiven (ch0 : Channel) (_ : List Nat) (a : Analysis) (ch : Channel) : Prop :=
  a.complete = false ∧ ch.remap = ch0.remap ∧ ch.log.failedSpares = ch0.log.failedSpares

theorem treatable_noneGiven (ch0 : Channel) : Treatable (NoneGiven ch0) where
  spare hc _ h := absurd hc (by rw [h.1]; decide)
  unrepairable h := h
  marginal h := h
  refill h := h

theorem truncated_noneGiven (ch : Channel) (bank cap : Nat) :
    (ch.beginAnalysis bank false cap).remap = ch.remap ∧
      (ch.beginAnalysis bank false cap).log.failedSpares = ch.log.failedSpares := by
  by_cases h : columnFaulted (ch.log.pendingOf bank) ch.seq.columnThreshold = true
  · rw [beginAnalysis_of_faulted h]
    exact ⟨rfl, rfl⟩
  · rw [beginAnalysis_of_sound h]
    obtain ⟨a', ch', rows', ⟨-, hkeep⟩, ⟨-, -, heq⟩ | ⟨-, heq⟩⟩ :=
      (treatable_noneGiven ch).primaryPass _ (ch.analysisContext bank false cap) ch ⟨rfl, rfl, rfl⟩
    · rw [heq]; exact hkeep
    · rw [heq]; exact hkeep

/-- Settles O34. -/
theorem truncatedAnalysisGivesNoSpare : Obligations.TruncatedAnalysisGivesNoSpare := by
  intro ch bank cap
  refine ⟨(truncated_noneGiven ch bank cap).1, (truncated_noneGiven ch bank cap).2, fun hkeys => ?_⟩
  by_cases h : columnFaulted (ch.log.pendingOf bank) ch.seq.columnThreshold = true
  · rw [beginAnalysis_of_faulted h, faultBank_eq]
    refine List.forall₂_map_right_iff.mpr (List.forall₂_same.mpr fun r _ => ?_)
    split
    next hp => exact .inr ⟨hp.1, hp.2, .column, by decide, rfl⟩
    next => exact .inl rfl
  · obtain ⟨-, -, hclaims, hends⟩ := beginAnalysis_treated (complete := false) (cap := cap) hkeys h
    obtain ⟨primary, hprimary⟩ : ∃ x, (byCount ((ch.log.pendingOf bank).filter
      fun r => decide (ch.seq.threshold ≤ r.count))).map FailRecord.row = x := ⟨_, rfl⟩
    rw [hprimary] at hclaims hends
    by_cases hroom : primary ≠ [] ∧ (ch.remap.filter fun x => x.target.isShadow).length < cap
    · exact (hclaims hroom.1 hroom.2).2.2.2.imp fun r r' h => .inl (h.2 (.inr nofun))
    · have hend : primary = [] ∨ cap ≤ (ch.remap.filter fun x => x.target.isShadow).length := by
        rwa [not_and_or, not_not, not_lt] at hroom
      have hmore (rows : List Nat) : (if ch.seq.repairsMarginal = true then rows.zip (([] : List Nat).drop primary.length) else []) = [] := by
        rw [List.drop_nil, List.zip_nil_right, ite_self]
      refine (hends hend).2.2.2.imp fun r r' ⟨_, hleft, hmarginal, hother⟩ => ?_
      by_cases hp : r.bank = bank ∧ r.status = .pending
      · by_cases hrow : r.row ∈ primary
        · exact .inr ⟨hp.1, hp.2, .unrepairable, by decide, hleft hp hrow⟩
        · refine .inr ⟨hp.1, hp.2, .marginal, by decide, hmarginal hp hrow fun hin => ?_⟩
          replace hin : r.row ∈ (if ch.seq.repairsMarginal = true then
            List.zip _ (([] : List Nat).drop primary.length) else []).map Prod.fst := hin
          rw [hmore] at hin
          cases hin
      · exact .inl (hother hp)

end

/-! ### A claim (R59, R79) -/

theorem memGet_filter (p : Nat → Bool) (m : List Host.Cell) (a : Nat) :
    memGet (m.filter fun x => p x.1) a = if p a = true then memGet m a else none := by
  induction m with
  | nil => simp [memGet]
  | cons x m ih =>
    obtain ⟨k, v⟩ := x
    by_cases hk : k = a
    · subst hk
      cases hp : p k with
      | true => simp [hp, memGet]
      | false => simpa [hp] using ih
    · cases hp : p k with
      | true => simp [hp, memGet, hk, ih]
      | false => simp [hp, memGet, hk, ih]

/-- A zero-filled buffer reads 0 (R79), and every other byte stands. -/
theorem shadowRead_shadowZeroFill (m : List Host.Cell) (e x : Nat) :
    shadowRead (shadowZeroFill m e) x = if x / 16384 = e then 0 else shadowRead m x := by
  have hkeep : (x < shadowAddr e 0 || shadowAddr (e + 1) 0 ≤ x) = true ↔ x / 16384 ≠ e := by
    rw [Bool.or_eq_true, decide_eq_true_iff, decide_eq_true_iff]
    simp only [shadowAddr, Config.bufferBytes]
    exact ⟨fun h => by omega, fun h => by omega⟩
  unfold shadowRead shadowZeroFill
  rw [memGet_filter fun a => a < shadowAddr e 0 || shadowAddr (e + 1) 0 ≤ a]
  split
  next h => rw [if_neg (hkeep.mp h)]
  next h => rw [if_pos (not_not.mp (mt hkeep.mpr h))]; rfl

theorem setStatus_eq (l : FailLog) (bank row : Nat) (st : RecStatus) (x : Option Nat) :
    l.setStatus bank row st x = { l with records := l.records.map fun r =>
      if r.bank = bank ∧ r.row = row then { r with status := st, target := x } else r } := by
  unfold FailLog.setStatus
  simp only [hasKey_iff]

/-- The answered candidate is decided, and the analysis goes on with the others. -/
theorem answered_treated {ch : Channel} {a : Analysis} {row : Nat} {rest : List Nat} {st : RecStatus} {x : Option Nat}
    (hkeys : (ch.log.records.map fun r => (r.bank, r.row)).Nodup) (hnodup : (row :: rest).Nodup)
    (hp : ∀ r ∈ row :: rest, ch.log.Pending a.bank r) (hst : st ≠ .pending) {ch' : Channel}
    (hlog : ch'.log = ch.log.setStatus a.bank row st x) :
    Treated ch' a rest (primaryPass rest { a with phase := .primary } ch') ∧
      ∃ r ∈ (primaryPass rest { a with phase := .primary } ch').log.records,
        r.bank = a.bank ∧ r.row = row ∧ r.status = st ∧ r.target = x := by
  obtain ⟨hrow, hrest⟩ := List.nodup_cons.mp hnodup
  have htreated : Treated ch' { a with phase := .primary } rest (primaryPass rest { a with phase := .primary } ch') := by
    refine primaryPass_treated (by rw [hlog, setStatus_keys]; exact hkeys) hrest fun r hr => ?_
    rw [hlog]
    exact (hp r (List.mem_cons_of_mem _ hr)).setStatus_ne st x fun h => hrow (h ▸ hr)
  obtain ⟨r, hr, hb, hrr, -⟩ := hp row List.mem_cons_self
  refine ⟨htreated, { r with status := st, target := x }, htreated.mem_of_decided ?_ hst, hb, hrr, rfl, rfl⟩
  rw [hlog, setStatus_eq]
  exact List.mem_map.mpr ⟨r, hr, if_pos ⟨hb, hrr⟩⟩

/-- Settles O35. -/
theorem shadowClaimAnswered : Obligations.ShadowClaimAnswered := by
  intro s c a row rest hlog hrepair ha hphase hcand ch marked
  obtain ⟨hnodup, hp⟩ := (hrepair c).2 a ha hphase
  rw [hcand] at hnodup hp
  have hkeys := (hlog c).2.1
  have hmarked (st : RecStatus) (x : Option Nat) : marked st x = ch.log.setStatus a.bank row st x := (setStatus_eq ..).symm
  have hexec : exec (.shadowClaim c) s = .next (s.answerClaim c a row rest) := by
    show Host.Outcome.next (shadowClaim c s) = _
    rw [shadowClaim, ha]
    simp only [hphase, hcand]
  refine ⟨_, hexec, ?_⟩
  simp only [hmarked]
  cases hfree : s.shadow.lowestFree with
  | some e =>
    have heq : s.answerClaim c a row rest = ({ s with shadow := s.shadow.grant e c } : State).updChan c fun ch =>
        primaryPass rest { a with phase := .primary } (ch.repairShadow a.bank row e.val) := by
      rw [State.answerClaim, hfree]
    have hlow := (lowestFree_eq_some_iff ..).mp hfree
    rw [heq]
    refine ⟨rfl, fun d hd => chan_updChan_ne _ _ hd, fun e' he' hbelow => ?_, fun hfull => absurd hlow.1 (hfull e)⟩
    obtain rfl : e = e' :=
      Option.some.inj (hfree.symm.trans ((lowestFree_eq_some_iff ..).mpr ⟨he', hbelow⟩))
    rw [chan_updChan_same]
    refine ⟨rfl, rfl, fun o ho => ?_, fun x hx => ?_, answered_treated hkeys hnodup hp (by decide) rfl⟩
    · exact (shadowRead_shadowZeroFill ..).trans (if_pos (by omega))
    · exact (shadowRead_shadowZeroFill ..).trans (if_neg hx)
  | none =>
    have heq : s.answerClaim c a row rest = s.updChan c fun ch =>
        primaryPass rest { a with phase := .primary } (ch.markUnrepairable a.bank row) := by
      rw [State.answerClaim, hfree]
    have hfull := (lowestFree_eq_none_iff ..).mp hfree
    rw [heq]
    refine ⟨rfl, fun d hd => chan_updChan_ne _ _ hd, fun e he _ => absurd he (hfull e), fun _ => ?_⟩
    rw [chan_updChan_same]
    exact ⟨rfl, answered_treated hkeys hnodup hp (by decide) rfl⟩

end Sys2Proof.Machine
end

section
/-! What a change of one channel's state brings about beside it (R99, R152, R156, R157): the rules that the statements about
single commands share. -/

namespace Sys2Proof.Machine

/-! ### Records that a report write's start or end leaves -/

theorem KeepsRecord.state_eq {a b : Channel} (h : KeepsRecord a b) (hx : a.seq.state ≠ .done) : b.seq.state = a.seq.state := by
  obtain ⟨-, -, -, -, -, -, -, hopens, -, -⟩ := h
  obtain ⟨h, -⟩ | ⟨h, -⟩ := hopens
  · exact h
  · exact absurd h hx

/-- A channel stands but for its report operations. -/
structure Stands (a b : Channel) : Prop where
  same : b = { a with ds := b.ds }
  stream : KeepsStream a.ds b.ds

section
variable {a b : Channel}

theorem Stands.seq (h : Stands a b) : b.seq = a.seq := by rw [h.same]

theorem Stands.port (h : Stands a b) : b.port = a.port := by rw [h.same]

theorem Stands.log (h : Stands a b) : b.log = a.log := by rw [h.same]

theorem Stands.remap (h : Stands a b) : b.remap = a.remap := by rw [h.same]

theorem Stands.geometry (h : Stands a b) : b.geometry = a.geometry := by rw [h.same]

theorem Stands.repairs (h : Stands a b) : KeepsRepairs a b := ⟨h.geometry, h.remap, h.log⟩

end

/-- Where the state stands, only report writes may have joined or left. -/
theorem KeepsRecord.stands {a b : Channel} (h : KeepsRecord a b) (hx : b.seq.state = a.seq.state) : Stands a b := by
  obtain ⟨hsupply, hgeo, hremap, hlog, hmarch, hanalyser, hseq, hopens, hds, hown⟩ := h
  have hport : b.port = a.port := by
    obtain ⟨-, h⟩ | ⟨h1, h2, -⟩ := hopens
    · exact h
    · rw [h1, h2] at hx
      cases hx
  rw [hx] at hseq
  refine ⟨?_, hds, hown⟩
  obtain ⟨_, _, _, _, _, _, _, _, _⟩ := b
  dsimp only at hsupply hgeo hremap hlog hmarch hanalyser hseq hport
  rw [hsupply, hgeo, hremap, hlog, hmarch, hanalyser, hseq, hport]

/-! ### The writer, where no write is to be abandoned -/

/-- The write in progress, if any, goes on (R156). -/
def State.Carrying (s : State) : Prop := ∀ w, s.writer.write = some w → (s.seqState w.chan).carriesReport = true

theorem settle_of_carrying {s : State} (h : s.Carrying) : s.settle = s.maybeStart.raiseReady := by
  have : s.abandonWrite = s := by
    unfold State.abandonWrite
    split
    next w hw => exact if_pos (h w hw)
    next => rfl
  rw [State.settle, this]

theorem maybeStart_chan_of_not_reportable {s : State} {c : Chan} (h : (s.seqState c).reportable = false) :
    s.maybeStart.chan c = s.chan c := by
  unfold State.maybeStart State.startWrite
  dsimp only
  split
  · split
    next => rfl
    next d hd =>
      have hne : c ≠ d := by
        rintro rfl
        rw [placeChannel_reportable hd] at h
        cases h
      unfold State.handReportBlock
      split
      · obtain ⟨-, hother, -⟩ := carryReportBlock_carried (s.updWriter fun x => { x with pendingPublish := false })
          { chan := d, base := s.placeBase d, blocks := s.reportBlocks, index := 0, blockAt := .waiting,
            startSet := allChans.filter fun d => s.seqState d == .done }
        exact hother c hne
      · rfl
  · rfl

/-- Every channel stands, but that a report write's first block may have joined the placed one. -/
theorem settle_stands {s : State} (h : s.Carrying) (c : Chan) : Stands (s.chan c) (s.settle.chan c) := by
  rw [settle_of_carrying h, raiseReady_chan]
  exact ((bystander_maybeStart s).2.2.2 c).stands ((maybeStart_frame s).2.2 c)

theorem settle_chan_of_not_reportable {s : State} (h : s.Carrying) {c : Chan} (hx : (s.seqState c).reportable = false) :
    s.settle.chan c = s.chan c := by
  rw [settle_of_carrying h, raiseReady_chan, maybeStart_chan_of_not_reportable hx]

/-! ### One channel changes, and the change is settled -/

/-- Beside channel `c` and the arbiter, the part has become `u` by no more than a result that channel `c` has taken. -/
structure Shifts (c : Chan) (s u : State) : Prop where
  shared : KeepsShared s u
  others : ∀ d, d ≠ c → u.chan d = s.chan d
  writer : u.writer = s.writer

section
variable {c : Chan} {s u : State} {f : Channel → Channel}

theorem shifts_took (c : Chan) (s : State) (f : Channel → Channel) (r : EndResult) :
    Shifts c s ((s.updChan c f).updBoard (·.took r)) :=
  ⟨⟨rfl, rfl, rfl, rfl, rfl, id⟩, fun _ hd => chan_updChan_ne s f hd, rfl⟩

theorem shifts_updChan (c : Chan) (s : State) (f : Channel → Channel) : Shifts c s (s.updChan c f) :=
  ⟨⟨rfl, rfl, rfl, rfl, rfl, id⟩, fun _ hd => chan_updChan_ne s f hd, rfl⟩

theorem Shifts.trans {v : State} (h : Shifts c s u) (h' : Shifts c u v) : Shifts c s v :=
  ⟨h.shared.trans h'.shared, fun d hd => (h'.others d hd).trans (h.others d hd), h'.writer.trans h.writer⟩

theorem shifts_updArbiter (c : Chan) (s : State) (f : Arbiter → Arbiter) : Shifts c s (s.updArbiter f) :=
  ⟨⟨rfl, rfl, rfl, rfl, rfl, id⟩, fun _ _ => rfl, rfl⟩

/-- The write in progress is not on channel `c`, and goes on. -/
theorem Shifts.carrying (h : Shifts c s u) (hw : WriterLaw s) (hx : (s.seqState c).carriesReport = false) : u.Carrying := by
  intro w hwrite
  have hcarry := (hw w (h.writer ▸ hwrite)).1
  have hne : w.chan ≠ c := by
    rintro rfl
    rw [hx] at hcarry
    cases hcarry
  rwa [State.seqState, h.others _ hne]

theorem Shifts.others_settle (h : Shifts c s u) : ∀ d, d ≠ c → KeepsRecord (s.chan d) (u.settle.chan d) :=
  fun d hd => h.others d hd ▸ (bystander_settle u).2.2.2 d

theorem Shifts.shared_settle (h : Shifts c s u) : KeepsShared s u.settle := h.shared.trans (bystander_settle u).1

theorem Shifts.around (h : Shifts c s u) (ha : u.arbiter = s.arbiter) : Around c s u.settle :=
  ⟨h.shared_settle, (bystander_settle u).2.1.trans ha, h.others_settle⟩

theorem settle_fault (u : State) : u.settle.board.fault = u.board.fault := (bystander_settle u).2.2.1

theorem settle_arbiter (u : State) : u.settle.arbiter = u.arbiter := (bystander_settle u).2.1

/-- The channel has failed and the change is settled: it is as it failed but for its report operations. -/
structure FailSettled (c : Chan) (s t : State) (why : Reason) (failed : Channel) : Prop where
  with' : FailedWith t c why
  around : Around c s t
  stands : Stands failed (t.chan c)
  stream : WriterLaw s → (s.seqState c).carriesReport = false → t.chan c = failed

theorem failSettled (s : State) (c : Chan) (f : Channel → Channel) (why : Reason) :
    FailSettled c s ((s.updChan c f).failChannel c why).settle why ((f (s.chan c)).failed why) := by
  have hu : (s.updChan c f).failChannel c why = (s.updChan c fun ch => (f ch).failed why).updBoard (·.took .failed) := by
    rw [failChannel_eq, updChan_updChan]
  rw [hu]
  have hshift := shifts_took c s (fun ch => (f ch).failed why) .failed
  have hchan : ((s.updChan c fun ch => (f ch).failed why).updBoard (·.took .failed)).chan c = (f (s.chan c)).failed why :=
    chan_updChan_same s c fun ch => (f ch).failed why
  have hrecord := (bystander_settle ((s.updChan c fun ch => (f ch).failed why).updBoard (·.took .failed))).2.2.2 c
  rw [hchan] at hrecord
  have hstands := hrecord.stands (hrecord.state_eq nofun)
  refine ⟨?_, hshift.around rfl, hstands, fun hw hx => ?_⟩
  · rw [FailedWith, hstands.seq, settle_fault]
    exact ⟨rfl, rfl, rfl, Bool.or_true _⟩
  · refine (settle_chan_of_not_reportable (hshift.carrying hw hx) ?_).trans hchan
    rw [State.seqState, hchan]
    rfl

end

/-! ### The identity read (R90 to R92) -/

theorem identitySample_first {s : State} {c : Chan} (nibble : BitVec 4) {select attempt : Nat} {ns : List (BitVec 4)}
    (h : (s.chan c).seq.ident = .reading select attempt none ns) :
    identitySample c nibble s = s.updSeq c fun q => { q with ident := .reading select attempt (some nibble) ns } := by
  simp only [identitySample, h]

theorem identitySample_second {s : State} {c : Chan} (nibble : BitVec 4) {select attempt : Nat} {first : BitVec 4}
    {ns : List (BitVec 4)} (h : (s.chan c).seq.ident = .reading select attempt (some first) ns) :
    identitySample c nibble s =
      if first = nibble then s.acceptNibble c select (ns ++ [nibble])
      else if attempt < 3 then s.updSeq c fun q => { q with ident := .reading select (attempt + 1) none ns }
      else ((s.updSeq c fun q => { q with ident := .idle }).failChannel c .identityUnstable).settle := by
  simp only [identitySample, h]
  rfl

theorem acceptNibble_next (s : State) (c : Chan) (select : Nat) {ns : List (BitVec 4)} (h : ns.length < 4) :
    s.acceptNibble c select ns = s.updChan c fun ch =>
      { ch with seq := { ch.seq with ident := .reading (select + 1) 1 none ns }, ds := { ch.ds with select := select + 1 } } := by
  unfold State.acceptNibble
  split
  next => exact absurd h (lt_irrefl 4)
  next => exact updChan_updChan s c _ _

theorem updSeq_handWidthOp_eq (s : State) (c : Chan) (f : Sequencer → Sequencer) (n : Nat) :
    (s.updSeq c f).handWidthOp c n = s.updChan c fun ch =>
      { ch with seq := f ch.seq, ds := { ch.ds with ops := ch.ds.ops ++ [widthOp n] } } := by
  unfold State.handWidthOp State.handOver State.updDs State.updSeq
  rw [updChan_updChan]

/-- Channel `c`, reading its identity, carries no report write (R156). -/
theorem not_carries_of_ident {s : State} {c : Chan} (hl : SequencerLaw s) (h : (s.chan c).seq.ident ≠ .idle) :
    (s.seqState c).carriesReport = false := by
  obtain ⟨-, -, -, hident, -⟩ := hl
  rw [hident c h]
  rfl

/-- Settles O9. -/
theorem identityRead : Obligations.IdentityRead := by
  intro s c nibble select attempt ns
  refine ⟨fun h => exists_onlyChannel rfl (identitySample_first nibble h) rfl, fun first h => ?_⟩
  have hsample := identitySample_second nibble h
  refine ⟨fun hne hlt => ?_, fun hne hlast => ?_, fun heq hlen => ?_, fun n0 n1 n2 heq hns => ?_⟩
  · rw [if_neg hne, if_pos hlt] at hsample
    exact exists_onlyChannel rfl hsample rfl
  · rw [if_neg hne, if_neg (by omega)] at hsample
    obtain ⟨hwith, haround, hchan, hstream⟩ :=
      failSettled s c (fun ch => { ch with seq := { ch.seq with ident := .idle } }) .identityUnstable
    refine ⟨_, congrArg Host.Outcome.next hsample, hwith, haround, hchan.seq, hchan.repairs, hchan.port, fun hl hw => ?_⟩
    have := hstream hw (not_carries_of_ident hl (by rw [h]; exact nofun))
    exact (congrArg Channel.ds this).trans rfl
  · rw [if_pos heq, acceptNibble_next s c select (by rw [List.length_append, List.length_singleton]; omega)] at hsample
    exact exists_onlyChannel rfl hsample rfl
  · intro v
    rw [if_pos heq, hns] at hsample
    replace hsample : identitySample c nibble s = s.identityRead c v := hsample
    unfold State.identityRead at hsample
    refine ⟨fun hv => ?_, fun hv => ?_⟩
    · rw [if_pos (show v = unpopulated from hv)] at hsample
      have hshift := shifts_updChan c s fun ch =>
        { ch with seq := { ch.seq with identityRead := some v, ident := .idle, state := .absent } }
      have hrecord := (bystander_settle (s.updChan c fun ch =>
        { ch with seq := { ch.seq with identityRead := some v, ident := .idle, state := .absent } })).2.2.2 c
      rw [chan_updChan_same] at hrecord
      have hchan := hrecord.stands (hrecord.state_eq nofun)
      refine ⟨_, congrArg Host.Outcome.next hsample, hshift.around rfl, settle_fault _, hchan.seq, hchan.repairs, hchan.port,
        fun hl hw => ?_⟩
      have := settle_chan_of_not_reportable (hshift.carrying hw (not_carries_of_ident hl (by rw [h]; exact nofun))) (c := c)
        (by rw [State.seqState, chan_updChan_same]; rfl)
      rw [chan_updChan_same] at this
      exact (congrArg Channel.ds this).trans rfl
    · rw [if_neg (show ¬v = unpopulated from hv)] at hsample
      have hhand : s.identityRead c v = s.updChan c fun ch =>
          { ch with seq := { ch.seq with identityRead := some v, ident := .widthCheck 1 0 },
                    ds := { ch.ds with ops := ch.ds.ops ++ [widthOp 1] } } :=
        (if_neg hv).trans (updSeq_handWidthOp_eq s c _ 1)
      obtain ⟨t, hexec, honly, hchan⟩ := exists_onlyChannel (i := .identitySample c nibble) rfl (hsample.trans
        ((if_neg hv).symm.trans hhand)) rfl
      exact ⟨t, widthOp 1, hexec, honly, hchan, rfl, rfl, rfl, rfl, rfl, _, rfl, eightWords_word _⟩

/-! ### The width check ends (R93, R94) -/

/-- The last operation of the width check has completed. -/
theorem widthCheckOpComplete_last {s : State} {c : Chan} {data r1 : Block} {op : DsOp} {rest : List DsOp}
    (hops : (s.chan c).ds.ops = op :: rest) (ho : op.owner = .widthCheck true) (hi : (s.chan c).seq.ident = .widthCheck 4 r1) :
    widthCheckOpComplete c data s = (s.updChan c (Channel.completed op rest)).judge c r1 data := by
  have hident : ((s.updChan c (Channel.completed op rest)).chan c).seq.ident = .widthCheck 4 r1 := by
    rw [chan_updChan_same]; exact hi
  rw [widthCheckOpComplete_live data hops ho, State.widthStep, hident]
  rfl

/-- Settles O12. -/
theorem widthCheckEnds : Obligations.WidthCheckEnds := by
  intro s c data r1 op rest hops ho hread hi
  have hstep := widthCheckOpComplete_last (data := data) hops ho hi
  have hdone : Channel.completed op rest (s.chan c) = { s.chan c with ds := { (s.chan c).ds with ops := rest } } := by
    simp [Channel.completed, landAll, hread]
  rw [judge_eq] at hstep
  refine ⟨fun hw => ?_, fun w hw hloading => ?_⟩
  · simp only [hw] at hstep
    have heq : (s.updChan c (Channel.completed op rest)).updSeq c (fun q => { q with ident := .idle }) =
        s.updChan c fun ch => { ch.completed op rest with seq := { ch.seq with ident := .idle } } := updChan_updChan s c _ _
    rw [heq] at hstep
    obtain ⟨hwith, haround, hchan, hstream⟩ :=
      failSettled s c (fun ch => { ch.completed op rest with seq := { ch.seq with ident := .idle } }) .width
    refine ⟨_, congrArg Host.Outcome.next hstep, hwith, haround, hchan.seq, hchan.repairs, hchan.port, fun hl hwr => ?_⟩
    have := hstream hwr (not_carries_of_ident hl (by rw [hi]; exact nofun))
    exact (congrArg Channel.ds this).trans (congrArg Channel.ds hdone)
  · simp only [hw] at hstep
    rw [if_pos (show (s.updChan c (Channel.completed op rest)).loader.state = .loading from hloading), updChan_updChan] at hstep
    refine exists_onlyChannel rfl hstep ?_
    rw [hdone]
    rfl

end Sys2Proof.Machine
end

section
/-! The budget's expiry before and in the queue, an analysis that completes, and the selection after the width check (O13,
O20, O21, O36). -/

namespace Sys2Proof.Machine

section
variable {s : State} {c : Chan}

/-- Channel `c` has taken a result, and the change is settled. -/
theorem took_settled (f : Channel → Channel) (r : EndResult) (hw : WriterLaw s) (hx : (s.seqState c).carriesReport = false) :
    let t := ((s.updChan c f).updBoard (·.took r)).settle
    Around c s t ∧ Stands (f (s.chan c)) (t.chan c) ∧ t.board.fault = (s.board.fault || r.isFault) := by
  have hshift := shifts_took c s f r
  have hstands := settle_stands (hshift.carrying hw hx) c
  rw [chan_updBoard, chan_updChan_same] at hstands
  exact ⟨hshift.around rfl, hstands, settle_fault _⟩

/-! ### The selection (R94 to R96) -/

theorem selectOn_of_undecodable {v : BitVec 16} {w : Width} (h : decodeIdentity v w = none) (viaAlias : Bool)
    (profile : Option (Nat × Profile)) (test : Bool) :
    s.selectOn c v viaAlias w profile test = (s.updChan c (Channel.chose v viaAlias)).failChannel c .geometry := by
  rw [selectOn_eq, h]

theorem selectOn_untested {v : BitVec 16} {w : Width} {g : Geometry} (h : decodeIdentity v w = some g) (viaAlias : Bool)
    (profile : Option (Nat × Profile)) :
    s.selectOn c v viaAlias w profile false =
      (s.updChan c fun ch => (ch.selects v viaAlias g profile).untested s.strap).updBoard (·.took .untested) := by
  rw [selectOn_eq, h]
  simp only [Bool.false_eq_true, if_false, finishUntested_eq, strap_updChan, updChan_updChan]

/-- The channel is about to ask for a slot for a bank (R97). -/
def Channel.wantsBank (bank : Nat) (ch : Channel) : Channel := { ch with seq := { ch.seq with nextBank := bank } }

theorem selectOn_test {v : BitVec 16} {w : Width} {g : Geometry} (h : decodeIdentity v w = some g) (viaAlias : Bool)
    (profile : Option (Nat × Profile)) :
    s.selectOn c v viaAlias w profile true =
      (s.updChan c fun ch => (ch.selects v viaAlias g profile).wantsBank 0).requestSlot c := by
  rw [selectOn_eq, h]
  simp only [if_true, State.updSeq, updChan_updChan]
  rfl

/-! ### The budget expires (R117 to R119) -/

/-- The timer has delivered its expiry (R116). -/
def Channel.expired (ch : Channel) : Channel := { ch with seq := { ch.seq with timer := .expired } }

theorem budgetExpiry_eq {ms : Nat} (h : (s.chan c).seq.timer = .running ms) :
    budgetExpiry c s = (s.updChan c Channel.expired).expireBudget c := deliverExpiry_eq h

theorem seqState_expired (d : Chan) : (s.updChan c Channel.expired).seqState d = s.seqState d :=
  seqState_updSeq_timer s c d .expired

theorem expireBudget_powering (h : s.seqState c = .powering) :
    s.expireBudget c = ((s.updSeq c fun q => { q with supplyWait := false }).failChannel c .notReady).settle := by
  rw [State.expireBudget, h]

theorem expireBudget_identifying (h : s.seqState c = .identifying) :
    s.expireBudget c = ((s.stopIdentify c).failChannel c .notReady).settle := by
  rw [State.expireBudget, h]

theorem expireBudget_selecting (h : s.seqState c = .selecting) : s.expireBudget c = (s.selectUnread c).settle := by
  rw [State.expireBudget, h]

theorem expireBudget_queued (h : s.seqState c = .queued) :
    s.expireBudget c = ((s.departQueue c).endTesting c).settle := by
  rw [State.expireBudget, h]

/-- In POWERING and IDENTIFYING the expiry fails the channel, and its supply wait or identification is over (R117). -/
theorem expiry_failSettled (hl : SequencerLaw s) {ms : Nat} (hms : (s.chan c).seq.timer = .running ms)
    (hx : s.seqState c = .powering ∨ s.seqState c = .identifying) :
    ∃ t, budgetExpiry c s = t ∧ FailSettled c s t .notReady
      { s.chan c with
        seq := { (s.chan c).seq with timer := .expired, supplyWait := false, ident := .idle, state := .failed, result := .failed,
                                     reason := .notReady },
        ds := { (s.chan c).ds with
          ops := if s.seqState c = .identifying then (s.chan c).ds.ops.map DsOp.discardWidth else (s.chan c).ds.ops } } := by
  obtain ⟨-, -, -, hident, hwait, -⟩ := hl
  rw [budgetExpiry_eq hms]
  obtain hx | hx := hx
  · have hidle : (s.chan c).seq.ident = .idle := by
      by_contra hne
      rw [hident c hne] at hx
      cases hx
    have heq : (s.updChan c Channel.expired).expireBudget c =
        ((s.updChan c fun ch => { ch with seq := { ch.seq with timer := .expired, supplyWait := false } }).failChannel c
          .notReady).settle := by
      rw [expireBudget_powering (by rwa [seqState_expired]), State.updSeq, updChan_updChan]
      rfl
    refine ⟨_, rfl, ?_⟩
    rw [heq, hx]
    have := failSettled s c (fun ch => { ch with seq := { ch.seq with timer := .expired, supplyWait := false } }) .notReady
    simp only [Channel.failed] at this
    rwa [hidle] at this
  · have hnowait : (s.chan c).seq.supplyWait = false := by
      by_contra hne
      rw [hwait c (by simpa using hne)] at hx
      cases hx
    have heq : (s.updChan c Channel.expired).expireBudget c =
        ((s.updChan c fun ch => ch.expired.unidentified).failChannel c .notReady).settle := by
      rw [expireBudget_identifying (by rwa [seqState_expired]), stopIdentify_eq, updChan_updChan]
    refine ⟨_, rfl, ?_⟩
    rw [heq, hx]
    have := failSettled s c (fun ch => ch.expired.unidentified) .notReady
    simp only [Channel.failed, Channel.unidentified, Channel.expired] at this
    rwa [hnowait] at this

/-- Settles O20. -/
theorem budgetExpiryBeforeTesting : Obligations.BudgetExpiryBeforeTesting := by
  intro s c ms hl hw hms
  refine ⟨fun hx => ?_, fun v w hx hv hwidth => ?_⟩
  · obtain ⟨t, ht, hwith, haround, hstands, hstream⟩ := expiry_failSettled hl hms hx
    have hcarry : (s.seqState c).carriesReport = false := by
      obtain hx | hx := hx
      · rw [hx]; rfl
      · rw [hx]; rfl
    exact ⟨t, congrArg Host.Outcome.next ht, hwith, haround, hstands.seq, hstands.repairs, hstands.port,
      by rw [hstream hw hcarry]⟩
  · have hexpire : budgetExpiry c s = ((s.updChan c Channel.expired).selectOn c v false w none false).settle := by
      rw [budgetExpiry_eq hms, expireBudget_selecting (by rwa [seqState_expired]), State.selectUnread, chan_updChan_same]
      simp only [Channel.expired, hv, hwidth]
    have hcarry : (s.seqState c).carriesReport = false := by rw [hx]; rfl
    cases hdec : decodeIdentity v w with
    | none =>
      rw [selectOn_of_undecodable hdec, updChan_updChan] at hexpire
      obtain ⟨hwith, haround, hstands, -⟩ := failSettled s c (fun ch => ch.expired.chose v false) .geometry
      exact ⟨_, congrArg Host.Outcome.next hexpire, haround, hstands.log, hstands.remap, hstands.stream,
        fun _ => ⟨hwith, hstands.geometry, hstands.port, hstands.seq⟩, nofun⟩
    | some g =>
      rw [selectOn_untested hdec, updChan_updChan] at hexpire
      obtain ⟨haround, hstands, hfault⟩ :=
        took_settled (fun ch => (ch.expired.selects v false g none).untested s.strap) .untested hw hcarry
      refine ⟨_, congrArg Host.Outcome.next hexpire, haround, hstands.log, hstands.remap, hstands.stream, nofun, fun g' hg => ?_⟩
      obtain rfl := Option.some.inj hg
      exact ⟨hstands.geometry, hfault.trans (Bool.or_true _), hstands.seq, hstands.port⟩

/-! ### The end of testing (R68, R98) -/

theorem endResult_isFault (ch : Channel) (openFailed : Bool) :
    (ch.endResult openFailed).isFault = !(decide (ch.endResult openFailed = .clean) || decide (ch.endResult openFailed = .repaired)) := by
  have hset : ch.endResult openFailed ≠ .unset := by
    unfold Channel.endResult
    split
    · split <;> exact nofun
    · split
      · exact nofun
      · split
        · exact nofun
        · split <;> exact nofun
  cases h : ch.endResult openFailed with
  | unset => exact absurd h hset
  | clean | repaired | partly | untested | degraded | failed => rfl

/-- The sequencer and the port of a channel at the end of its testing. -/
theorem ended_eq (strap : BitVec 8) (openFailed : Bool) (ch : Channel) :
    let r := ch.endResult openFailed
    ch.ended strap openFailed = { ch with
      seq := { ch.seq with
        result := r, reason := ch.endReason,
        state := if r = .failed then .failed else if strapPublish strap then .done else .opened },
      port := if r = .failed then ch.port else portWhenDone strap ch.port } := by
  intro r
  unfold Channel.ended
  split
  next h =>
    rw [endReason_of_failed h, show r = .failed from h]
    rfl
  next => rfl

/-- Channel `c` ends its testing from a state that carries no report, and the change is settled. -/
theorem endTesting_settled (f : Channel → Channel) (u : State) (hshift : Shifts c s (u.updChan c f)) (hw : WriterLaw s)
    (hx : (s.seqState c).carriesReport = false) :
    let ch := f (u.chan c)
    let r := ch.endResult s.loader.kept.openFailed
    let t := (((u.updChan c f).endTesting c)).settle
    KeepsShared s t ∧ t.arbiter = u.arbiter ∧ (∀ d, d ≠ c → KeepsRecord (s.chan d) (t.chan d)) ∧
      Stands (ch.ended s.strap s.loader.kept.openFailed) (t.chan c) ∧ t.board.fault = (u.board.fault || r.isFault) := by
  obtain ⟨-, hstrap, -, hloader, -, -⟩ := hshift.shared
  have hstrap : u.strap = s.strap := hstrap
  have hloader : u.loader = s.loader := hloader
  have heq := endTesting_eq (u.updChan c f) c
  rw [chan_updChan_same, updChan_updChan, strap_updChan, loader_updChan, hstrap, hloader] at heq
  intro ch r t
  have ht : t = ((u.updChan c fun x => (f x).ended s.strap s.loader.kept.openFailed).updBoard (·.took r)).settle :=
    congrArg State.settle heq
  have hshift' : Shifts c s ((u.updChan c fun x => (f x).ended s.strap s.loader.kept.openFailed).updBoard (·.took r)) :=
    ⟨hshift.shared, fun d hd => (chan_updChan_ne u (fun x => (f x).ended s.strap s.loader.kept.openFailed) hd).trans ((chan_updChan_ne u f hd).symm.trans (hshift.others d hd)),
      hshift.writer⟩
  have hstands := settle_stands (hshift'.carrying hw hx) c
  rw [chan_updBoard, chan_updChan_same] at hstands
  rw [ht]
  exact ⟨hshift'.shared_settle, settle_arbiter _, hshift'.others_settle, hstands, settle_fault _⟩

/-- Settles O21. -/
theorem budgetExpiryInQueued : Obligations.BudgetExpiryInQueued := by
  intro s c ms hl hw hms hx
  have hexpire : budgetExpiry c s = (((s.departQueue c).updChan c Channel.expired).endTesting c).settle := by
    rw [budgetExpiry_eq hms, expireBudget_queued (by rwa [seqState_expired])]
    rfl
  have hshift : Shifts c s ((s.departQueue c).updChan c Channel.expired) :=
    (shifts_updArbiter c s _).trans (shifts_updChan c _ _)
  obtain ⟨hshared, harb, hothers, hstands, hfault⟩ :=
    endTesting_settled Channel.expired (s.departQueue c) hshift hw (by rw [hx]; rfl)
  rw [ended_eq] at hstands
  exact ⟨_, congrArg Host.Outcome.next hexpire, hstands.seq, hstands.port, hstands.stream,
    hfault.trans (congrArg _ (endResult_isFault (s.chan c).expired _)), hstands.repairs, hshared, harb, hothers⟩

end

end Sys2Proof.Machine
end

section
/-! An analysis that completes, and the selection after the width check (O13, O36). -/

namespace Sys2Proof.Machine

section
variable {s : State} {c : Chan}

/-! ### A slot request (R97, R111) -/

theorem granted_of_geometry {ch : Channel} {g : Geometry} (h : ch.geometry = some g) :
    ch.granted = { ch with
      seq := { ch.seq with state := .testing, entered := ch.seq.entered ++ [ch.seq.nextBank] },
      march := some (Sweep.start ch.seq.march ch.seq.nextBank g),
      ds := { ch.ds with ops := ch.ds.ops ++ (Sweep.start ch.seq.march ch.seq.nextBank g).blockOps g } } := by
  simp [Channel.granted, h, Channel.sweeps]

/-- A changed channel asks for a slot. -/
theorem updChan_requestSlot_eq (s : State) (c : Chan) (f : Channel → Channel) :
    (s.updChan c f).requestSlot c =
      if s.arbiter.holders.length < s.arbiter.slots then
        (s.updArbiter fun a => { a with holders := a.holders ++ [c] }).updChan c fun ch => (f ch).queued.granted
      else (s.updArbiter fun a => { a with waitQueue := a.waitQueue ++ [c] }).updChan c fun ch => (f ch).queued := by
  rw [requestSlot_eq, arbiter_updChan]
  by_cases h : s.arbiter.holders.length < s.arbiter.slots
  · rw [if_pos h, if_pos h]
    exact updChan_updChan (s.updArbiter fun a => { a with holders := a.holders ++ [c] }) c f fun ch => ch.queued.granted
  · rw [if_neg h, if_neg h]
    exact updChan_updChan (s.updArbiter fun a => { a with waitQueue := a.waitQueue ++ [c] }) c f Channel.queued

/-! ### An analysis completes (R64) -/

/-- The analyser has returned to IDLE. -/
def Channel.analysed (ch : Channel) : Channel := { ch with analyser := none }

theorem analysisComplete_eq {a : Analysis} {g : Geometry} (hx : s.seqState c = .analysing) (ha : (s.chan c).analyser = some a)
    (hphase : a.phase ≠ .claiming) (hg : (s.chan c).geometry = some g) :
    analysisComplete c s =
      if (s.chan c).seq.budgetExpired = true ∨ g.banks ≤ a.bank + 1 then
        ((s.updChan c Channel.analysed).endTesting c).settle
      else (s.updChan c fun ch => ch.analysed.wantsBank (a.bank + 1)).requestSlot c := by
  have hset : s.setAnalyser c none = s.updChan c Channel.analysed := rfl
  rw [analysisComplete, ha]
  simp only
  rw [if_pos ⟨hx, hphase⟩, State.afterAnalysis, hset, chan_updChan_same]
  have hbanks : (((s.chan c).analysed.geometry.map Geometry.banks).getD 0) = g.banks := by
    rw [Channel.analysed, hg, Option.map_some, Option.getD_some]
  simp only [hbanks, Bool.or_eq_true, decide_eq_true_eq, State.updSeq, updChan_updChan]
  rfl

/-- Settles O36. -/
theorem analysisCompleteGoesOn : Obligations.AnalysisCompleteGoesOn := by
  intro s c a g hl hw hx ha hphase hg
  have heq := analysisComplete_eq hx ha hphase hg
  by_cases hend : (s.chan c).seq.budgetExpired = true ∨ g.banks ≤ a.bank + 1
  · rw [if_pos hend] at heq
    obtain ⟨hshared, harb, hothers, hstands, hfault⟩ :=
      endTesting_settled Channel.analysed s (shifts_updChan c s _) hw (by rw [hx]; rfl)
    rw [ended_eq] at hstands
    refine ⟨_, congrArg Host.Outcome.next heq, ?_, hstands.repairs, fun h1 h2 => ?_, fun _ => ⟨hstands.seq, hstands.port,
      hstands.stream, hfault.trans (congrArg _ (endResult_isFault (s.chan c).analysed _)), hshared, harb, hothers⟩⟩
    · rw [hstands.same]
      rfl
    · obtain h | h := hend
      · rw [h1] at h; cases h
      · omega
  · rw [if_neg hend, updChan_requestSlot_eq] at heq
    by_cases hroom : s.arbiter.holders.length < s.arbiter.slots
    · rw [if_pos hroom] at heq
      refine ⟨_, congrArg Host.Outcome.next heq, ?_⟩
      have hchan : ((s.updArbiter fun a => { a with holders := a.holders ++ [c] }).updChan c
          fun ch => (ch.analysed.wantsBank (a.bank + 1)).queued.granted).chan c = _ :=
        (chan_updChan_same ..).trans (granted_of_geometry (show ((s.chan c).analysed.wantsBank _).queued.geometry = some g from hg))
      rw [hchan]
      exact ⟨rfl, ⟨rfl, rfl, rfl⟩, fun _ _ => ⟨rfl, rfl, fun d hd => chan_updChan_ne _ _ hd, fun _ => ⟨rfl, rfl, rfl, rfl⟩,
        fun hfull => absurd hroom (not_lt.mpr hfull)⟩, fun h => absurd h hend⟩
    · rw [if_neg hroom] at heq
      refine ⟨_, congrArg Host.Outcome.next heq, ?_⟩
      rw [chan_updChan_same]
      exact ⟨rfl, ⟨rfl, rfl, rfl⟩, fun _ _ => ⟨rfl, rfl, fun d hd => chan_updChan_ne _ _ hd, fun h => absurd h hroom,
        fun _ => ⟨rfl, rfl, rfl⟩⟩, fun h => absurd h hend⟩

/-! ### The selection after the width check (R94) -/

theorem selectChannel_eq {v : BitVec 16} {w : Width} (hv : (s.chan c).seq.identityRead = some v)
    (hw : (s.chan c).seq.width = some w) :
    s.selectChannel c =
      s.selectOn c ((s.loader.aliasFor c).getD v) (s.loader.aliasFor c).isSome w
        (s.loader.profileFor ((s.loader.aliasFor c).getD v)) (strapSlotCode s.strap != 0 && !s.loader.skips c) := by
  simp only [State.selectChannel, hv, hw]

/-- Settles O13. -/
theorem selectionAfterWidthCheck : Obligations.SelectionAfterWidthCheck := by
  intro s c data r1 op rest w v hl hwr hops ho hi hjudge hload hv
  have hcarry : (s.seqState c).carriesReport = false := not_carries_of_ident hl (by rw [hi]; exact nofun)
  have hstep : widthCheckOpComplete c data s =
      ((s.updChan c fun ch => (ch.completed op rest).judged w).selectChannel c).settle := by
    rw [widthCheckOpComplete_last hops ho hi, judge_eq]
    simp only [hjudge]
    rw [if_neg (show ¬(s.updChan c (Channel.completed op rest)).loader.state = .loading from hload), updChan_updChan]
  rw [selectChannel_eq (v := v) (w := w) (by rw [chan_updChan_same]; exact hv) (by rw [chan_updChan_same]; rfl)] at hstep
  simp only [loader_updChan, strap_updChan] at hstep
  obtain ⟨eff, heff⟩ : ∃ eff, (s.loader.aliasFor c).getD v = eff := ⟨_, rfl⟩
  obtain ⟨viaAlias, halias⟩ : ∃ x, (s.loader.aliasFor c).isSome = x := ⟨_, rfl⟩
  rw [heff, halias] at hstep ⊢
  refine ⟨_, congrArg Host.Outcome.next hstep, ?_⟩
  intro eff' written judged chosen
  cases hdec : decodeIdentity eff w with
  | none =>
    rw [selectOn_of_undecodable hdec, updChan_updChan]
    obtain ⟨hwith, ⟨hshared, harb, hothers⟩, hstands, hstream⟩ :=
      failSettled s c (fun ch => ((ch.completed op rest).judged w).chose eff viaAlias) .geometry
    refine ⟨hshared, hstands.log, hstands.remap, hothers, fun _ => ⟨hwith, hstands.geometry, harb, hstands.seq, hstands.port, ?_⟩,
      nofun⟩
    rw [hstream hwr hcarry]
    rfl
  | some g =>
    obtain ⟨test, htest⟩ : ∃ x, (strapSlotCode s.strap != 0 && !s.loader.skips c) = x := ⟨_, rfl⟩
    rw [htest]
    cases test with
    | false =>
      rw [selectOn_untested hdec, strap_updChan, updChan_updChan]
      obtain ⟨⟨hshared, harb, hothers⟩, hstands, hfault⟩ := took_settled (fun ch => (((ch.completed op rest).judged w).selects eff
        viaAlias g (s.loader.profileFor eff)).untested s.strap) .untested hwr hcarry
      refine ⟨hshared, hstands.log, hstands.remap, hothers, nofun, fun g' hg' => ?_⟩
      obtain rfl := Option.some.inj hg'
      refine ⟨hstands.geometry, fun _ => ⟨hstands.seq, hstands.port, hstands.stream, hfault.trans (Bool.or_true _), harb⟩,
        fun h1 h2 => ?_⟩
      simp [h1, h2] at htest
    | true =>
      rw [selectOn_test hdec, updChan_updChan, updChan_requestSlot_eq]
      have hskip (h : strapSlotCode s.strap = 0 ∨ s.loader.skips c = true) : False := by
        obtain h | h := h
        · simp [h] at htest
        · simp [h] at htest
      split
      next hroom =>
        have hshift : Shifts c s ((s.updArbiter fun a => { a with holders := a.holders ++ [c] }).updChan c fun ch =>
            ((((ch.completed op rest).judged w).selects eff viaAlias g (s.loader.profileFor eff)).wantsBank 0).queued.granted) :=
          (shifts_updArbiter c s _).trans (shifts_updChan c _ _)
        have hchan := (chan_updChan_same (s.updArbiter fun a => { a with holders := a.holders ++ [c] }) c fun ch =>
            ((((ch.completed op rest).judged w).selects eff viaAlias g (s.loader.profileFor eff)).wantsBank 0).queued.granted).trans
          (granted_of_geometry (g := g) rfl)
        have hset := (settle_chan_of_not_reportable (hshift.carrying hwr hcarry) (c := c)
          (by rw [State.seqState, hchan]; rfl)).trans hchan
        refine ⟨hshift.shared_settle, by rw [hset]; rfl, by rw [hset]; rfl, hshift.others_settle, nofun, fun g' hg' => ?_⟩
        obtain rfl := Option.some.inj hg'
        rw [hset]
        exact ⟨rfl, fun h => (hskip h).elim, fun _ _ => ⟨settle_fault _, rfl, fun _ => ⟨rfl, settle_arbiter _, rfl, rfl⟩,
          fun h => absurd hroom (not_lt.mpr h)⟩⟩
      next hfull =>
        have hshift : Shifts c s ((s.updArbiter fun a => { a with waitQueue := a.waitQueue ++ [c] }).updChan c fun ch =>
            ((((ch.completed op rest).judged w).selects eff viaAlias g (s.loader.profileFor eff)).wantsBank 0).queued) :=
          (shifts_updArbiter c s _).trans (shifts_updChan c _ _)
        have hset := settle_chan_of_not_reportable (hshift.carrying hwr hcarry) (c := c)
          (by rw [State.seqState, chan_updChan_same]; rfl)
        rw [chan_updChan_same] at hset
        refine ⟨hshift.shared_settle, by rw [hset]; rfl, by rw [hset]; rfl, hshift.others_settle, nofun, fun g' hg' => ?_⟩
        obtain rfl := Option.some.inj hg'
        rw [hset]
        exact ⟨rfl, fun h => (hskip h).elim, fun _ _ => ⟨settle_fault _, rfl, fun h => absurd h hfull,
          fun _ => ⟨rfl, rfl, settle_arbiter _⟩⟩⟩

end

end Sys2Proof.Machine
end

section
/-! The operations of a sweep block as they complete (R27, R29 to R31): live ones, ones to be discarded, and a read whose
event overflows the Fail Log. -/

namespace Sys2Proof.Machine

theorem updChan_of_eq {s : State} {c : Chan} {f : Channel → Channel} (h : f (s.chan c) = s.chan c) : s.updChan c f = s := by
  refine state_ext rfl rfl (fun d => ?_) rfl rfl rfl rfl rfl rfl
  rw [chan_updChan]
  split
  next hd => rw [hd, h]
  next => rfl

/-! ### One operation completes -/

section
variable {s : State} {c : Chan} {op : DsOp} {rest : List DsOp} {live : Bool} {how : MarchOp}

theorem completeSweepOps_write (n : Nat) (reads : List Block) (h : (s.chan c).ds.ops = op :: rest)
    (ho : op.owner = .sweep live how) {data : Block} (hw : op.write = some data) :
    State.completeSweepOps (n + 1) s c reads =
      State.completeSweepOps n (s.updChan c (Channel.completed op rest)) c reads := by
  rw [State.completeSweepOps, h]
  simp only [ho, hw, completeHead_eq h]

theorem completeSweepOps_read (n : Nat) (data : Block) (reads : List Block) (h : (s.chan c).ds.ops = op :: rest)
    (ho : op.owner = .sweep true how) (hw : op.write = none) :
    State.completeSweepOps (n + 1) s c (data :: reads) =
      State.completeSweepOps n ((s.updChan c (Channel.completed op rest)).compareRead c op how data) c reads := by
  rw [State.completeSweepOps, h]
  simp only [ho, hw, completeHead_eq h]

theorem completeSweepOps_discarded (n : Nat) (data : Block) (reads : List Block) (h : (s.chan c).ds.ops = op :: rest)
    (ho : op.owner = .sweep false how) (hw : op.write = none) :
    State.completeSweepOps (n + 1) s c (data :: reads) =
      State.completeSweepOps n (s.updChan c (Channel.completed op rest)) c reads := by
  rw [State.completeSweepOps, h]
  simp only [ho, hw, completeHead_eq h]

end

/-! ### The operations of an abandoned sweep (R31) -/

/-- The reads among a list of operations. -/
def readOps (ops : List DsOp) : List DsOp := ops.filter fun op => op.write = none

theorem landAll_cons (op : DsOp) (ops : List DsOp) (m : List Host.Cell) : landAll (op :: ops) m = landAll ops (landAll [op] m) := rfl

theorem readOps_cons_write {op : DsOp} (ops : List DsOp) {data : Block} (h : op.write = some data) :
    readOps (op :: ops) = readOps ops := by simp [readOps, h]

theorem readOps_cons_read {op : DsOp} (ops : List DsOp) (h : op.write = none) :
    readOps (op :: ops) = op :: readOps ops := by simp [readOps, h]

/-- The operations complete without compare, and their writes reach memory. -/
theorem completeSweepOps_abandoned {c : Chan} (ops : List DsOp) : ∀ (s : State) (rest : List DsOp) (reads : List Block),
    (s.chan c).ds.ops = ops ++ rest → (∀ op ∈ ops, ∃ how, op.owner = .sweep false how) → (readOps ops).length ≤ reads.length →
    State.completeSweepOps ops.length s c reads =
      s.updChan c fun ch => { ch with ds := { ch.ds with ops := rest, written := landAll ops ch.ds.written } } := by
  induction ops with
  | nil =>
    intro s rest reads hops _ _
    exact (updChan_of_eq (by rw [← List.nil_append rest, ← hops]; rfl)).symm
  | cons op ops ih =>
    intro s rest reads hops hown hreads
    rw [List.cons_append] at hops
    obtain ⟨how, ho⟩ := hown op List.mem_cons_self
    have hnext : ((s.updChan c (Channel.completed op (ops ++ rest))).chan c).ds.ops = ops ++ rest := by rw [chan_updChan_same]; rfl
    have hown' : ∀ op ∈ ops, ∃ how, op.owner = .sweep false how := fun x hx => hown x (List.mem_cons_of_mem _ hx)
    have hcompose : (s.updChan c (Channel.completed op (ops ++ rest))).updChan c
        (fun ch => { ch with ds := { ch.ds with ops := rest, written := landAll ops ch.ds.written } }) =
        s.updChan c fun ch => { ch with ds := { ch.ds with ops := rest, written := landAll (op :: ops) ch.ds.written } } :=
      updChan_updChan s c _ _
    cases hw : op.write with
    | some data =>
      rw [readOps_cons_write ops hw] at hreads
      rw [List.length_cons, completeSweepOps_write _ _ hops ho hw, ih _ rest reads hnext hown' hreads, hcompose]
    | none =>
      rw [readOps_cons_read ops hw, List.length_cons] at hreads
      cases reads with
      | nil => exact absurd hreads (Nat.not_succ_le_zero _)
      | cons data reads =>
        rw [List.length_cons, completeSweepOps_discarded _ data reads hops ho hw,
          ih _ rest reads hnext hown' (Nat.le_of_succ_le_succ hreads), hcompose]

/-! ### The operations and the events of a block -/

/-- The operation that `how` brings to the block where a sweep stands (R20, R27). -/
def Sweep.opOf (m : Sweep) (g : Geometry) (e : Element) (how : MarchOp) : DsOp :=
  { owner := .sweep true how,
    write := if how.writes then some (patternBlock g.width e.background m.row m.col how.inverts) else none,
    bank := m.bank, row := m.row, col := m.col, layout := g.width }

/-- The fail event of one read (R29, R30). -/
def Sweep.eventOf (m : Sweep) (g : Geometry) (e : Element) (strap : BitVec 8) (x : MarchOp × Block) : Option FailEvent :=
  let expected := patternBlock g.width e.background m.row m.col x.1.inverts
  if failingColumns g.width m.col x.2 expected = [] then none
  else some { bank := m.bank, row := m.row, columns := failingColumns g.width m.col x.2 expected,
              lanes := failingLanes g.width x.2 expected, element := m.element,
              afterPause := afterPause strap m.march m.element }

/-- The fail events of a list of operations. -/
def Sweep.eventsOf (m : Sweep) (g : Geometry) (e : Element) (strap : BitVec 8) (hows : List MarchOp) (reads : List Block) :
    List FailEvent :=
  ((hows.filter fun op => !op.writes).zip reads).filterMap (m.eventOf g e strap)

section
variable {m : Sweep} {g : Geometry} {e : Element} {strap : BitVec 8} {how : MarchOp} {hows : List MarchOp} {reads : List Block}

theorem sweep_events_eq : m.events g e strap reads = m.eventsOf g e strap e.applied reads := rfl

theorem sweep_blockOps_eq_map (he : m.current = some e) : m.blockOps g = e.applied.map (m.opOf g e) := by
  unfold Sweep.blockOps
  rw [he]
  rfl

theorem eventsOf_write (h : how.writes = true) : m.eventsOf g e strap (how :: hows) reads = m.eventsOf g e strap hows reads := by
  simp [Sweep.eventsOf, h]

theorem eventsOf_read (h : how.writes = false) (data : Block) :
    m.eventsOf g e strap (how :: hows) (data :: reads) =
      (m.eventOf g e strap (how, data)).toList ++ m.eventsOf g e strap hows reads := by
  unfold Sweep.eventsOf
  rw [List.filter_cons_of_pos (by simp [h]), List.zip_cons_cons, List.filterMap_cons]
  cases m.eventOf g e strap (how, data) <;> rfl

theorem readOps_map_opOf : (readOps (hows.map (m.opOf g e))).length = (hows.filter fun op => !op.writes).length := by
  induction hows with
  | nil => rfl
  | cons how hows ih =>
    cases h : how.writes <;> simpa [readOps, Sweep.opOf, h] using ih

end

theorem takeAll_cons (l : FailLog) (visible : Nat) (ev : FailEvent) (evs : List FailEvent) :
    l.takeAll visible (ev :: evs) =
      (((l.take visible ev).1.takeAll visible evs).1,
        (l.take visible ev).2 || ((l.take visible ev).1.takeAll visible evs).2) := by
  have hflag (evs : List FailEvent) : ∀ (l : FailLog) (b : Bool),
      evs.foldl (fun x ev => ((x.1.take visible ev).1, x.2 || (x.1.take visible ev).2)) (l, b) =
        ((l.takeAll visible evs).1, b || (l.takeAll visible evs).2) := by
    induction evs with
    | nil => intro l b; simp [FailLog.takeAll]
    | cons ev evs ih =>
      intro l b
      rw [FailLog.takeAll, List.foldl_cons, List.foldl_cons, ih, ih]
      simp [Bool.or_assoc]
  rw [FailLog.takeAll, List.foldl_cons, hflag]
  simp

/-! ### A live read is compared (R29, R30, R47) -/

/-- A failing read: the pass-failed note is set and the Fail Log has taken the event. -/
def Channel.failsRead (m : Sweep) (log : FailLog) (ch : Channel) : Channel :=
  { ch with march := some { m with passFailed := true }, log := log }

/-- An overflow: a failing read whose event the Fail Log has not taken, with its cause. -/
def Channel.overflows (m : Sweep) (log : FailLog) (ch : Channel) : Channel :=
  { ch.failsRead m log with seq := { ch.seq with causes := { ch.seq.causes with overflow := true } } }

section
variable {s : State} {c : Chan} {m : Sweep} {g : Geometry} {e : Element}

theorem compareRead_eq (hm : (s.chan c).march = some m) (hg : (s.chan c).geometry = some g) (he : m.current = some e)
    (how : MarchOp) (data : Block) {op : DsOp} (hrow : op.row = m.row) (hcol : op.col = m.col) :
    s.compareRead c op how data =
      match m.eventOf g e s.strap (how, data) with
      | none => s
      | some ev =>
        let taken := (s.chan c).log.take g.visibleRows ev
        if taken.2 then (s.updChan c (Channel.overflows m taken.1)).truncateSweep c m.bank
        else s.updChan c (Channel.failsRead m taken.1) := by
  unfold State.compareRead
  rw [hm, hg]
  simp only [he, hrow, hcol, Sweep.eventOf]
  by_cases hpass : failingColumns g.width m.col data (patternBlock g.width e.background m.row m.col how.inverts) = []
  · simp only [hpass, List.isEmpty_nil, if_true]
  · have hfails : (failingColumns g.width m.col data (patternBlock g.width e.background m.row m.col how.inverts)).isEmpty = false := by
      rw [List.isEmpty_eq_false_iff]; exact hpass
    simp only [hpass, hfails, Bool.false_eq_true, if_false]
    unfold State.setLog State.setMarch State.updSeq
    simp only [updChan_updChan]
    rfl

end

/-! ### The live operations of a block -/

/-- The channel once operations of its block have completed: the Fail Log has taken their events, and their writes have
reached memory. -/
def Channel.progressed (m : Sweep) (log : FailLog) (failed : Bool) (ops : List DsOp) (written : List Host.Cell) (ch : Channel) :
    Channel :=
  { ch with log := log, march := some { m with passFailed := failed }, ds := { ch.ds with ops := ops, written := written } }

section
variable {c : Chan} {m : Sweep} {g : Geometry} {e : Element}

/-- A channel in the middle of a block: `hows` are the operations still to complete. -/
structure InBlock (s : State) (c : Chan) (m : Sweep) (g : Geometry) (e : Element) (failed : Bool) (hows : List MarchOp)
    (reads : List Block) : Prop where
  march : (s.chan c).march = some { m with passFailed := failed }
  geometry : (s.chan c).geometry = some g
  current : m.current = some e
  ops : (s.chan c).ds.ops = hows.map (m.opOf g e)
  reads : (hows.filter fun op => !op.writes).length ≤ reads.length

section
variable {s : State} {failed : Bool} {how : MarchOp} {hows : List MarchOp} {reads : List Block}

theorem InBlock.write (h : InBlock s c m g e failed (how :: hows) reads) (hw : how.writes = true) :
    State.completeSweepOps (how :: hows).length s c reads =
        State.completeSweepOps hows.length (s.updChan c (Channel.completed (m.opOf g e how) (hows.map (m.opOf g e)))) c reads ∧
      InBlock (s.updChan c (Channel.completed (m.opOf g e how) (hows.map (m.opOf g e)))) c m g e failed hows reads := by
  refine ⟨completeSweepOps_write _ _ h.ops rfl (data := patternBlock g.width e.background m.row m.col how.inverts) (if_pos hw),
    ?_, ?_, h.current, ?_, by simpa [hw] using h.reads⟩
  · rw [chan_updChan_same]; exact h.march
  · rw [chan_updChan_same]; exact h.geometry
  · rw [chan_updChan_same]; rfl

theorem InBlock.read (h : InBlock s c m g e failed (how :: hows) reads) (hw : how.writes = false) :
    ∃ data reads', reads = data :: reads' ∧
      State.completeSweepOps (how :: hows).length s c reads =
        State.completeSweepOps hows.length ((s.updChan c (Channel.completed (m.opOf g e how) (hows.map (m.opOf g e)))).compareRead c
          (m.opOf g e how) how data) c reads' ∧
      InBlock (s.updChan c (Channel.completed (m.opOf g e how) (hows.map (m.opOf g e)))) c m g e failed hows reads' := by
  have hreads := h.reads
  rw [List.filter_cons_of_pos (by simp [hw]), List.length_cons] at hreads
  cases reads with
  | nil => exact absurd hreads (Nat.not_succ_le_zero _)
  | cons data reads' =>
    refine ⟨data, reads', rfl, completeSweepOps_read _ data reads' h.ops rfl (if_neg (by simp [hw])), ?_, ?_, h.current, ?_,
      Nat.le_of_succ_le_succ hreads⟩
    · rw [chan_updChan_same]; exact h.march
    · rw [chan_updChan_same]; exact h.geometry
    · rw [chan_updChan_same]; rfl

theorem InBlock.compare (h : InBlock s c m g e failed hows reads) (how : MarchOp) (data : Block) :
    s.compareRead c (m.opOf g e how) how data =
      match m.eventOf g e s.strap (how, data) with
      | none => s
      | some ev =>
        let taken := (s.chan c).log.take g.visibleRows ev
        if taken.2 then (s.updChan c (Channel.overflows m taken.1)).truncateSweep c m.bank
        else s.updChan c (Channel.failsRead m taken.1) :=
  compareRead_eq (m := { m with passFailed := failed }) (e := e) h.march h.geometry h.current how data rfl rfl

theorem InBlock.failsRead (h : InBlock s c m g e failed hows reads) (log : FailLog) :
    InBlock (s.updChan c (Channel.failsRead m log)) c m g e true hows reads := by
  refine ⟨?_, ?_, h.current, ?_, h.reads⟩
  · rw [chan_updChan_same]; rfl
  · rw [chan_updChan_same]; exact h.geometry
  · rw [chan_updChan_same]; exact h.ops

end

/-- The operations of a block complete, no event overflowing. -/
theorem completeSweepOps_live (hows : List MarchOp) : ∀ (s : State) (failed : Bool) (reads : List Block),
    InBlock s c m g e failed hows reads →
    ((s.chan c).log.takeAll g.visibleRows (m.eventsOf g e s.strap hows reads)).2 = false →
    State.completeSweepOps hows.length s c reads =
      s.updChan c (Channel.progressed m ((s.chan c).log.takeAll g.visibleRows (m.eventsOf g e s.strap hows reads)).1
        (failed || !(m.eventsOf g e s.strap hows reads).isEmpty) [] (landAll (hows.map (m.opOf g e)) (s.chan c).ds.written)) := by
  induction hows with
  | nil =>
    intro s failed reads h _
    show s = _
    refine (updChan_of_eq ?_).symm
    have hops : (s.chan c).ds.ops = [] := h.ops
    simp only [Channel.progressed, Sweep.eventsOf, FailLog.takeAll, landAll, List.filter_nil, List.zip_nil_left,
      List.filterMap_nil, List.foldl_nil, List.isEmpty_nil, Bool.not_true, Bool.or_false, List.map_nil]
    rw [← h.march, ← hops]
  | cons how hows ih =>
    intro s failed reads h hfits
    cases hw : how.writes with
    | true =>
      obtain ⟨hstep, hin⟩ := h.write hw
      rw [eventsOf_write hw] at hfits ⊢
      have := ih _ failed reads hin (by rw [chan_updChan_same]; exact hfits)
      rw [hstep, this, updChan_updChan, chan_updChan_same]
      rfl
    | false =>
      obtain ⟨data, reads', rfl, hstep, hin⟩ := h.read hw
      rw [eventsOf_read hw] at hfits ⊢
      rw [hstep, hin.compare, strap_updChan, chan_updChan_same]
      cases hev : m.eventOf g e s.strap (how, data) with
      | none =>
        rw [hev] at hfits
        have := ih _ failed reads' hin (by rw [chan_updChan_same]; exact hfits)
        simp only
        rw [this, updChan_updChan, chan_updChan_same]
        rfl
      | some ev =>
        rw [hev, Option.toList_some, List.singleton_append, takeAll_cons, Bool.or_eq_false_iff] at hfits
        have hlog : (Channel.completed (m.opOf g e how) (hows.map (m.opOf g e)) (s.chan c)).log = (s.chan c).log := rfl
        simp only [hlog, hfits.1, Bool.false_eq_true, if_false]
        have := ih _ true reads' (hin.failsRead ((s.chan c).log.take g.visibleRows ev).1)
          (by rw [chan_updChan_same]; exact hfits.2)
        rw [this, updChan_updChan, updChan_updChan, chan_updChan_same, chan_updChan_same, Option.toList_some,
          List.singleton_append, takeAll_cons]
        refine updChan_congr s c ?_
        simp only [List.isEmpty_cons, Bool.not_false, Bool.or_true, Bool.true_or]
        rfl

end

end Sys2Proof.Machine
end

section
/-! The end of a block, of a pass and of a sweep (O22, O24, O27 to O30). -/

namespace Sys2Proof.Machine

/-! ### The analysis does not read the stream -/

theorem marginalPass_work (d : Downstream) (x : Option Analysis) (rows : List Nat) : ∀ (a : Analysis) (ch : Channel),
    marginalPass rows a { ch with ds := d, analyser := x } = { marginalPass rows a ch with ds := d } := by
  induction rows with
  | nil => exact fun a ch => rfl
  | cons row rest ih =>
    intro a ch
    have hsame : (if a.complete && a.repairMarginal then
        a.goodSpare ({ ch with ds := d, analyser := x } : Channel).log ({ ch with ds := d, analyser := x } : Channel).spares else none) =
        if a.complete && a.repairMarginal then a.goodSpare ch.log ch.spares else none := rfl
    rw [marginalPass, marginalPass, hsame]
    cases (if a.complete && a.repairMarginal then a.goodSpare ch.log ch.spares else none) with
    | some k => exact ih _ (ch.repairSpare a.bank row k)
    | none => exact ih a { ch with log := ch.log.setStatus a.bank row .marginal none }

theorem primaryPass_work (d : Downstream) (x : Option Analysis) (rows : List Nat) : ∀ (a : Analysis) (ch : Channel),
    primaryPass rows a { ch with ds := d, analyser := x } = { primaryPass rows a ch with ds := d } := by
  induction rows with
  | nil => exact fun a ch => marginalPass_work d x _ a ch
  | cons row rest ih =>
    intro a ch
    have hsame : (if a.complete then
        a.goodSpare ({ ch with ds := d, analyser := x } : Channel).log ({ ch with ds := d, analyser := x } : Channel).spares else none) =
        if a.complete then a.goodSpare ch.log ch.spares else none := rfl
    rw [primaryPass, primaryPass, hsame]
    cases (if a.complete then a.goodSpare ch.log ch.spares else none) with
    | some k => exact ih _ (ch.repairSpare a.bank row k)
    | none =>
      by_cases hroom : heldEntries ch.remap < a.cap
      · simp only [hroom, if_true]
      · simp only [hroom, if_false]
        exact ih a (ch.markUnrepairable a.bank row)

theorem beginAnalysis_work (d : Downstream) (x : Option Analysis) (ch : Channel) (bank : Nat) (complete : Bool) (cap : Nat) :
    Channel.beginAnalysis { ch with ds := d, analyser := x } bank complete cap =
      { ch.beginAnalysis bank complete cap with ds := d } := by
  by_cases h : columnFaulted (ch.log.pendingOf bank) ch.seq.columnThreshold = true
  · rw [beginAnalysis_of_faulted h, beginAnalysis_of_faulted (ch := { ch with ds := d, analyser := x }) h]
    rfl
  · rw [beginAnalysis_of_sound h, beginAnalysis_of_sound (ch := { ch with ds := d, analyser := x }) h]
    exact primaryPass_work d x _ (ch.analysisContext bank complete cap) ch

theorem treatable_overflow : Treatable fun _ _ ch => ch.seq.causes.overflow = true where
  spare _ _ h := h
  unrepairable h := h
  marginal h := h
  refill h := h

/-- An analysis keeps the cause OVERFLOW (R65). -/
theorem beginAnalysis_overflow {ch : Channel} (h : ch.seq.causes.overflow = true) (bank : Nat) (complete : Bool) (cap : Nat) :
    (ch.beginAnalysis bank complete cap).seq.causes.overflow = true := by
  by_cases hf : columnFaulted (ch.log.pendingOf bank) ch.seq.columnThreshold = true
  · rw [beginAnalysis_of_faulted hf]
    exact h
  · rw [beginAnalysis_of_sound hf]
    obtain ⟨a', ch', rows', hkeep, ⟨-, -, heq⟩ | ⟨-, heq⟩⟩ :=
      treatable_overflow.primaryPass _ (ch.analysisContext bank complete cap) ch h
    · rw [heq]; exact hkeep
    · rw [heq]; exact hkeep

/-! ### A channel leaves TESTING (R53, R97, R112) -/

/-- The channel `a`, its sweep ended, is `b`: the log and the causes are as given, and withholding has ended. -/
def LeavesTesting (a b : Channel) (log : FailLog) (causes : Causes) : Prop :=
  b = { a with
    log := log, march := none,
    seq := { a.seq with causes := causes, fullySwept := b.seq.fullySwept, budgetExpired := b.seq.budgetExpired,
                        timer := b.seq.timer },
    ds := { a.ds with ops := b.ds.ops, refreshWithheld := false, written := b.ds.written } }

section
variable {s : State} {c : Chan}

theorem SequencerLaw.ordered (h : SequencerLaw s) : Ordered s := ((sequencerLaw_iff s).mp h).2

theorem SequencerLaw.testing_of_march (h : SequencerLaw s) {m : Sweep} (hm : (s.chan c).march = some m) :
    s.seqState c = .testing := h.2.1 c (by rw [hm]; rfl)

theorem headGranted_released (hl : SequencerLaw s) (hx : s.seqState c = .testing) (g f : Channel → Channel) :
    HeadGranted s (((s.updChan c g).releaseSlot c).updChan c f) := by
  intro d hd
  have hne : d ≠ c := by
    rintro rfl
    rw [hl.ordered.head_queued hd] at hx
    cases hx
  rw [released_chan hl.ordered hx, if_neg hne, if_pos hd]
  constructor
  · unfold Channel.granted
    split
    · rfl
    · rfl
  · intro g' hg' m
    rw [granted_of_geometry hg']

/-- The channel `c` leaves TESTING for ANALYSING, and `d` is what its stream then is. -/
theorem sweepEnded (hl : SequencerLaw s) (hx : s.seqState c = .testing) {g : Channel → Channel} {log : FailLog} {causes : Causes}
    (hg : LeavesTesting (s.chan c) (g (s.chan c)) log causes) (bank : Nat) (complete : Bool) {d : Downstream}
    (hd : d = { (s.chan c).ds with ops := d.ops, refreshWithheld := false, written := d.written }) :
    let t := ((s.updChan c g).releaseSlot c).updChan c fun ch => { ch.analysing bank complete s.shadow.cap with ds := d }
    SweepEnded s t c log causes complete bank ∧ HeadGranted s t ∧
      t.chan c = { (g (s.chan c)).analysing bank complete s.shadow.cap with ds := d } := by
  intro t
  have hchan : t.chan c = { (g (s.chan c)).analysing bank complete s.shadow.cap with ds := d } := by
    rw [released_chan hl.ordered hx, if_pos rfl]
  refine ⟨?_, headGranted_released hl hx _ _, hchan⟩
  obtain ⟨a, ha⟩ : ∃ a : Channel, a = { g (s.chan c) with seq := { (g (s.chan c)).seq with state := .analysing } } := ⟨_, rfl⟩
  obtain ⟨⟨hframe, hrestatus⟩, x, hx1, hx2⟩ := beginAnalysis_keeps a bank complete s.shadow.cap
  have hchan' : t.chan c = { a.beginAnalysis bank complete s.shadow.cap with ds := d } := by rw [hchan, ha]; rfl
  have hlog : a.log = log := by rw [ha, hg]
  have hcauses : a.seq.causes = causes := by rw [ha, hg]
  have hremap : a.remap = (s.chan c).remap := by rw [ha, hg]
  have hwork := beginAnalysis_work d (a.beginAnalysis bank complete s.shadow.cap).analyser a bank complete s.shadow.cap
  refine ⟨?_, ?_, ?_, ?_, ?_, ?_, ?_, ?_, fun hc => ?_, ?_, ?_, ?_, ?_, fun e he hhead => ?_⟩
  · rw [hchan', ← hwork, ← hlog, ← hcauses, ← hremap]
    refine congrArg (fun ch => Channel.beginAnalysis ch bank complete s.shadow.cap) ?_
    rw [hwork, hframe]
  · rw [hchan', hframe, ha]
  · rw [hchan', hframe, ha, hg]
  · rw [hchan']
    exact congrArg Downstream.refreshWithheld hd
  · rw [hchan']
    refine ⟨x, hx1, ?_, ?_, ?_⟩
    · rw [hx2]; rfl
    · rw [hx2]; rfl
    · rw [hx2]; rfl
  · rw [hchan', hframe, ha, hg]
  · rw [hchan', hframe, ha, hg]
  · rw [hchan', hframe, ha, hg]
  · rw [hchan', hc]
    exact (truncated_noneGiven a bank _).1.trans hremap
  · rw [hchan', hframe, ha, hg]
  · rw [hchan', hframe, ha, hg]
  · rw [hchan']
    exact hd
  · exact released_frame ..
  · rw [released_chan hl.ordered hx, if_neg he, if_neg hhead]

/-- The same, the stream standing as the sweep left it. -/
theorem sweepEnded_stream (hl : SequencerLaw s) (hx : s.seqState c = .testing) {g : Channel → Channel} {log : FailLog}
    {causes : Causes} (hg : LeavesTesting (s.chan c) (g (s.chan c)) log causes) (bank : Nat) (complete : Bool) :
    let t := ((s.updChan c g).releaseSlot c).updChan c (Channel.analysing bank complete s.shadow.cap)
    SweepEnded s t c log causes complete bank ∧ HeadGranted s t ∧
      t.chan c = (g (s.chan c)).analysing bank complete s.shadow.cap := by
  intro t
  have hchan := released_chan hl.ordered hx g id c
  rw [if_pos rfl, chan_updChan_same] at hchan
  have hds (ch : Channel) : (ch.analysing bank complete s.shadow.cap).ds = ch.ds := by
    unfold Channel.analysing
    rw [(beginAnalysis_keeps _ bank complete s.shadow.cap).1.frame]
  have ht : t = ((s.updChan c g).releaseSlot c).updChan c fun ch =>
      { ch.analysing bank complete s.shadow.cap with ds := (g (s.chan c)).ds } := by
    refine updChan_congr _ c ?_
    have : ((s.updChan c g).releaseSlot c).chan c = g (s.chan c) := hchan
    rw [this, ← hds (g (s.chan c))]
  obtain ⟨hended, hhead, hfinal⟩ := sweepEnded hl hx hg bank complete (d := (g (s.chan c)).ds)
    (by conv_lhs => rw [hg])
  rw [ht]
  refine ⟨hended, hhead, hfinal.trans ?_⟩
  rw [← hds (g (s.chan c))]

theorem analysing_seq (bank : Nat) (complete : Bool) (cap : Nat) (ch : Channel) :
    (ch.analysing bank complete cap).seq =
      { ch.seq with state := .analysing, causes := (ch.analysing bank complete cap).seq.causes } := by
  unfold Channel.analysing
  rw [(beginAnalysis_keeps _ bank complete cap).1.frame]

theorem analysing_ds (bank : Nat) (complete : Bool) (cap : Nat) (ch : Channel) : (ch.analysing bank complete cap).ds = ch.ds := by
  unfold Channel.analysing
  rw [(beginAnalysis_keeps _ bank complete cap).1.frame]

end

end Sys2Proof.Machine
end

section
/-! A sweep block completes: O22, O24, O27, O29 and O30. -/

namespace Sys2Proof.Machine

/-! ### The operations at the head of the stream -/

/-- Whether an operation belongs to a run of live, or of abandoned, sweep operations. -/
def DsOp.inRun (live : Bool) (op : DsOp) : Bool :=
  match op.owner with
  | .sweep l _ => l == live
  | _ => false

theorem DsOp.inRun_iff {live : Bool} {op : DsOp} : op.inRun live = true ↔ ∃ how, op.owner = .sweep live how := by
  unfold DsOp.inRun
  cases op.owner <;> simp

theorem sweepRun_cons {op : DsOp} {live : Bool} {how : MarchOp} (h : op.owner = .sweep live how) (ops : List DsOp) :
    sweepRun (op :: ops) = ((op :: ops).takeWhile (DsOp.inRun live)).length := by
  unfold sweepRun
  simp only [h]
  rfl

theorem sweepRun_append {ops rest : List DsOp} {live : Bool} (hne : ops ≠ [])
    (hown : ∀ op ∈ ops, ∃ how, op.owner = .sweep live how)
    (hrest : ∀ op how, rest.head? = some op → op.owner ≠ .sweep live how) : sweepRun (ops ++ rest) = ops.length := by
  have hend : rest.takeWhile (DsOp.inRun live) = [] := by
    cases rest with
    | nil => rfl
    | cons op rest =>
      refine List.takeWhile_cons_of_neg fun hrun => ?_
      obtain ⟨how, h⟩ := DsOp.inRun_iff.mp hrun
      exact hrest op how rfl h
  obtain ⟨op, ops', rfl⟩ := List.exists_cons_of_ne_nil hne
  obtain ⟨how, hop⟩ := hown op List.mem_cons_self
  rw [List.cons_append, sweepRun_cons hop, ← List.cons_append,
    List.takeWhile_append_of_pos fun o ho => DsOp.inRun_iff.mpr (hown o ho), hend, List.append_nil]

section
variable {s : State} {c : Chan} {m : Sweep} {g : Geometry} {e : Element} {reads : List Block}

/-- The part of a sweep at a block whose operations are handed over. -/
theorem inBlock_of_blockOps (hm : (s.chan c).march = some m) (hg : (s.chan c).geometry = some g) (he : m.current = some e)
    (hops : (s.chan c).ds.ops = m.blockOps g) (hreads : e.readCount ≤ reads.length) :
    InBlock s c m g e m.passFailed e.applied reads :=
  ⟨hm, hg, he, hops.trans (sweep_blockOps_eq_map he), hreads⟩

theorem sweepRun_blockOps (he : m.current = some e) (happ : e.applied ≠ []) :
    sweepRun (m.blockOps g) = e.applied.length := by
  have hown : ∀ op ∈ e.applied.map (m.opOf g e), ∃ how, op.owner = .sweep true how := by
    intro op hop
    obtain ⟨how, -, rfl⟩ := List.mem_map.mp hop
    exact ⟨how, rfl⟩
  have h := sweepRun_append (rest := []) (mt List.map_eq_nil_iff.mp happ) hown fun _ _ h => absurd h (Option.some_ne_none _).symm
  rwa [List.append_nil, List.length_map, ← sweep_blockOps_eq_map he] at h

theorem headIsLiveSweep_blockOps (he : m.current = some e) (happ : e.applied ≠ []) :
    headIsLiveSweep (m.blockOps g) = true := by
  rw [sweep_blockOps_eq_map he]
  obtain ⟨how, hows, h⟩ := List.exists_cons_of_ne_nil happ
  rw [h, List.map_cons, headIsLiveSweep, List.head?_cons]
  rfl

/-- The channel once the block is done, before the walk goes on. -/
def Channel.blockDone (m : Sweep) (g : Geometry) (e : Element) (strap : BitVec 8) (reads : List Block) (ch : Channel) : Channel :=
  ch.progressed m (ch.log.takeAll g.visibleRows (m.events g e strap reads)).1
    (m.passFailed || !(m.events g e strap reads).isEmpty) [] (landAll (m.blockOps g) ch.ds.written)

/-- The operations of a live block complete, no event overflowing, and the March Engine goes on (R27). -/
theorem sweepOpsComplete_live (hm : (s.chan c).march = some m) (hg : (s.chan c).geometry = some g) (he : m.current = some e)
    (happ : e.applied ≠ []) (hops : (s.chan c).ds.ops = m.blockOps g) (hreads : e.readCount ≤ reads.length)
    (hfits : ((s.chan c).log.takeAll g.visibleRows (m.events g e s.strap reads)).2 = false) :
    sweepOpsComplete c reads s =
      (s.updChan c (Channel.blockDone m g e s.strap reads)).endBlock c
        { m with passFailed := m.passFailed || !(m.events g e s.strap reads).isEmpty } g e := by
  have hdone : State.completeSweepOps (sweepRun (s.chan c).ds.ops) s c reads =
      s.updChan c (Channel.blockDone m g e s.strap reads) := by
    rw [hops, sweepRun_blockOps he happ,
      completeSweepOps_live e.applied s m.passFailed reads (inBlock_of_blockOps hm hg he hops hreads) hfits,
      ← sweep_blockOps_eq_map he]
    rfl
  have hcurrent : ({ m with passFailed := m.passFailed || !(m.events g e s.strap reads).isEmpty } : Sweep).current = some e := he
  unfold sweepOpsComplete
  simp only [hdone]
  rw [hops, headIsLiveSweep_blockOps he happ, if_pos rfl, State.advanceSweep, chan_updChan_same]
  simp only [Channel.blockDone, Channel.progressed, hg, hcurrent, List.any_nil, Bool.false_eq_true, if_false]

theorem sweeps_blockDone (hg : (s.chan c).geometry = some g) (next : Sweep) (strap : BitVec 8) :
    ((s.chan c).blockDone m g e strap reads).sweeps next =
      { s.chan c with
        log := ((s.chan c).log.takeAll g.visibleRows (m.events g e strap reads)).1,
        march := some next,
        ds := { (s.chan c).ds with ops := next.blockOps g, written := landAll (m.blockOps g) (s.chan c).ds.written } } := by
  simp [Channel.sweeps, Channel.blockDone, Channel.progressed, hg]

/-- The walk goes on to the next block. -/
theorem sweepOpsComplete_next {row col : Nat} (hm : (s.chan c).march = some m) (hg : (s.chan c).geometry = some g)
    (he : m.current = some e) (happ : e.applied ≠ []) (hops : (s.chan c).ds.ops = m.blockOps g)
    (hreads : e.readCount ≤ reads.length)
    (hfits : ((s.chan c).log.takeAll g.visibleRows (m.events g e s.strap reads)).2 = false)
    (hnext : walkNext g e.down m.row m.col = some (row, col)) :
    sweepOpsComplete c reads s =
      s.updChan c fun ch => (ch.blockDone m g e s.strap reads).sweeps
        { m with row := row, col := col, passFailed := m.passFailed || !(m.events g e s.strap reads).isEmpty } := by
  rw [sweepOpsComplete_live hm hg he happ hops hreads hfits, State.endBlock]
  simp only [hnext]
  rw [setMarch_handSweepBlock, updChan_updChan]

end

/-- Settles O27: the block's operations complete one by one (`completeSweepOps_live`), and the walk has a next block. -/
theorem sweepReadFails : Obligations.SweepReadFails := by
  intro s c m g e reads row col hm hg he happ hops hnext hreads events taken hfits next
  exact exists_onlyChannel rfl (sweepOpsComplete_next hm hg he happ hops hreads.ge hfits hnext)
    (sweeps_blockDone hg next s.strap)

/-! ### A block whose reads all pass (R20, R29) -/

section
variable {m : Sweep} {g : Geometry} {e : Element}

theorem failingColumns_same (w : Width) (col : Nat) (data : Block) : failingColumns w col data data = [] := by
  simp [failingColumns, wordDiff]

theorem eventsOf_expected (strap : BitVec 8) (hows : List MarchOp) :
    m.eventsOf g e strap hows ((hows.filter fun op => !op.writes).map fun op =>
      patternBlock g.width e.background m.row m.col op.inverts) = [] := by
  unfold Sweep.eventsOf
  refine List.filterMap_eq_nil_iff.mpr fun x hx => ?_
  rw [← List.map_id (List.filter _ hows), List.map_map, List.zip_map', List.mem_map] at hx
  obtain ⟨how, -, rfl⟩ := hx
  exact if_pos (failingColumns_same ..)

theorem events_expected (strap : BitVec 8) : m.events g e strap (expectedReads g.width e m.row m.col) = [] :=
  eventsOf_expected strap e.applied

end

/-! ### The record of DRAM writes (log entry 3) -/

theorem dramDoubt_of_read {op : DsOp} (h : op.write = none) (m : List Host.Cell) : dramDoubt op m = m := by
  simp [dramDoubt, h]

/-- Settles O24: a write's bytes by the laws of the byte memory; a block that passes hands over no event. -/
theorem sweepBlockPasses : Obligations.SweepBlockPasses := by
  constructor
  · intro op data m place
    have hplace : place = dramAddr op.layout op.bank op.row op.col := rfl
    rw [hplace]
    refine ⟨fun i hi => memGet_dramLand_inside op data m hi, fun hw i hi => ?_, fun hr => dramDoubt_of_read hr m,
      fun x hx => ⟨memGet_dramLand_outside op data m fun i hi h => hx i hi h.symm, ?_⟩, fun x => ?_⟩
    · rw [memGet_dramDoubt op m hw, if_pos ⟨i, List.mem_range.mpr hi, rfl⟩]
    · by_cases hw : op.write = none
      · rw [dramDoubt_of_read hw]
      · rw [memGet_dramDoubt op m hw, if_neg]
        rintro ⟨i, hi, h⟩
        exact hx i (List.mem_range.mp hi) h.symm
    · exact (memGet_filter (fun a => decide (a % 8 < 4)) m x).trans (if_congr decide_eq_true_iff rfl rfl)
  · intro s c m g e row col hm hg he happ hops hnext
    have hev := events_expected (m := m) (g := g) (e := e) s.strap
    have hlog : (s.chan c).log.takeAll g.visibleRows (m.events g e s.strap (expectedReads g.width e m.row m.col)) =
        ((s.chan c).log, false) := by rw [hev]; rfl
    have hcount : (expectedReads g.width e m.row m.col).length = e.readCount := List.length_map _
    have hstep := sweepOpsComplete_next hm hg he happ hops hcount.ge (by rw [hlog]) hnext
    refine exists_onlyChannel rfl hstep ?_
    rw [sweeps_blockDone hg, hlog, hev]
    simp

end Sys2Proof.Machine
end

section
/-! The end of a pass and of a pause, and an abandoned sweep: O22, O29 and O30. -/

namespace Sys2Proof.Machine

section
variable {s : State} {c : Chan} {m : Sweep} {g : Geometry} {e : Element}

/-- Another pass follows (R23, R24). -/
theorem passAgain_iff :
    m.passAgain e = true ↔
      e.repeatCode = 0 ∧ m.passFailed = true ∧ m.pass < 8 ∨ e.repeatCode ≠ 0 ∧ m.pass < min e.repeatCode 8 := by
  unfold Sweep.passAgain repeatPasses
  by_cases h : e.repeatCode = 0
  · simp only [h, if_true, Bool.and_eq_true, true_and, ne_eq, not_true_eq_false, false_and, or_false]
    exact and_congr_right fun _ => decide_eq_true_iff
  · simp [h]

theorem beginPass_eq (n pass : Nat) : s.beginPass c m g n pass = s.updChan c (Channel.sweeps (m.beginPass g n pass)) := by
  unfold State.beginPass
  rw [setMarch_handSweepBlock]

theorem nextElement_of_lt (h : m.element < m.march.length) :
    s.nextElement c m g = s.updChan c (Channel.sweeps (m.beginPass g (m.element + 1) 1)) := by
  rw [State.nextElement, if_pos h, beginPass_eq]

/-- The last element of a march ends: the sweep completes and the analysis of its bank begins (R28, R53). -/
theorem nextElement_of_ge (h : m.march.length ≤ m.element) (f : Channel → Channel) :
    (s.updChan c f).nextElement c m g =
      ((s.updChan c fun ch => (f ch).swept m.bank).releaseSlot c).updChan c (Channel.analysing m.bank true s.shadow.cap) := by
  rw [State.nextElement, if_neg (Nat.not_lt.mpr h), completeSweep_eq, updChan_updChan, shadow_updChan]

theorem endPass_of_again (h : m.passAgain e = true) :
    s.endPass c m g e = s.updChan c (Channel.sweeps (m.beginPass g m.element (m.pass + 1))) := by
  rw [State.endPass, if_pos h, beginPass_eq]

theorem endPass_of_pause (h : ¬m.passAgain e = true) (hp : 0 < effectivePause s.strap e) :
    s.endPass c m g e = s.updChan c fun ch =>
      { ch with march := some { m with pause := some (8 * effectivePause s.strap e) },
                ds := { ch.ds with refreshWithheld := true } } := by
  rw [State.endPass, if_neg h, State.endElement, if_pos hp, State.setMarch, State.updDs, updChan_updChan]

theorem endPass_of_nextElement (h : ¬m.passAgain e = true) (hp : ¬0 < effectivePause s.strap e) :
    s.endPass c m g e = s.nextElement c m g := by
  rw [State.endPass, if_neg h, State.endElement, if_neg hp]

/-- The sweep of a channel that has completed its last element ends, and the stream stands (R28, R53). -/
theorem sweepEnded_swept (hl : SequencerLaw s) (hx : s.seqState c = .testing) {f : Channel → Channel} {log : FailLog} {bank : Nat}
    (hf : LeavesTesting (s.chan c) ((f (s.chan c)).swept bank) log (s.chan c).seq.causes)
    (hseq : (f (s.chan c)).seq = (s.chan c).seq) :
    let t := ((s.updChan c fun ch => (f ch).swept bank).releaseSlot c).updChan c (Channel.analysing bank true s.shadow.cap)
    SweepEnded s t c log (s.chan c).seq.causes true bank ∧ HeadGranted s t ∧
      (t.chan c).seq.budgetExpired = (s.chan c).seq.budgetExpired ∧ (t.chan c).seq.timer = (s.chan c).seq.timer ∧
      (t.chan c).seq.fullySwept = (s.chan c).seq.fullySwept ++ [bank] ∧ (t.chan c).ds = (f (s.chan c)).ds := by
  intro t
  obtain ⟨hended, hhead, hchan⟩ := sweepEnded_stream hl hx (g := fun ch => (f ch).swept bank) hf bank true
  have hseq' : (t.chan c).seq = { (s.chan c).seq with
      fullySwept := (s.chan c).seq.fullySwept ++ [bank], state := .analysing, causes := (t.chan c).seq.causes } := by
    rw [hchan]
    refine (analysing_seq bank true s.shadow.cap ((f (s.chan c)).swept bank)).trans ?_
    simp only [Channel.swept, hseq]
  refine ⟨hended, hhead, ?_, ?_, ?_, ?_⟩
  · rw [hseq']
  · rw [hseq']
  · rw [hseq']
  · rw [hchan]
    exact analysing_ds bank true s.shadow.cap ((f (s.chan c)).swept bank)

end

/-- Settles O29: the block's operations complete (`sweepOpsComplete_live`), the walk has no next block, and R23 to R28 decide
what follows. -/
theorem sweepPassEnds : Obligations.SweepPassEnds := by
  intro s c m g e reads hl hm hg he happ hwithheld hops hnext hreads events taken hfits failed again written
  refine ⟨_, rfl, ?_⟩
  have hx : s.seqState c = .testing := hl.testing_of_march hm
  obtain ⟨m', hm'⟩ : ∃ m' : Sweep, m' = { m with passFailed := failed } := ⟨_, rfl⟩
  obtain ⟨u, hu⟩ : ∃ u, u = s.updChan c (Channel.blockDone m g e s.strap reads) := ⟨_, rfl⟩
  have hstep : sweepOpsComplete c reads s = u.endPass c m' g e := by
    rw [sweepOpsComplete_live hm hg he happ hops hreads.ge hfits, State.endBlock]
    simp only [hnext]
    rw [hu, hm']
  have hagain : m'.passAgain e = true ↔ again := by rw [passAgain_iff, hm']
  have hstrap : u.strap = s.strap := by rw [hu, strap_updChan]
  have hpass (next : Sweep) (hthen : sweepOpsComplete c reads s = u.updChan c (Channel.sweeps next)) :
      OnlyChannel c s (sweepOpsComplete c reads s) ∧
        (sweepOpsComplete c reads s).chan c = { s.chan c with
          log := taken.1, march := some next, ds := { (s.chan c).ds with ops := next.blockOps g, written := written } } := by
    rw [hthen, hu, updChan_updChan]
    exact ⟨onlyChannel_updChan s c _, (chan_updChan_same ..).trans (sweeps_blockDone hg next s.strap)⟩
  refine ⟨fun h => ?_, fun h hpauses hcode => ?_, fun h hnone => ?_⟩
  · refine hpass _ ?_
    rw [hstep, endPass_of_again (hagain.mpr h), hm']
    rfl
  · have hpause : effectivePause u.strap e = e.pauseCode := by rw [hstrap, effectivePause, if_pos hpauses]
    have hthen := hstep.trans (endPass_of_pause (mt hagain.mp h) (by rw [hpause]; exact hcode))
    rw [hpause, hu, updChan_updChan] at hthen
    rw [hthen]
    refine ⟨onlyChannel_updChan s c _, (chan_updChan_same ..).trans ?_⟩
    rw [hm']
    rfl
  · have hpause : effectivePause u.strap e = 0 := by
      rw [hstrap, effectivePause]
      obtain h | h := hnone
      · simp [h]
      · simp [h]
    have hthen := hstep.trans (endPass_of_nextElement (mt hagain.mp h) (by rw [hpause]; exact lt_irrefl 0))
    refine ⟨fun hmore => ?_, fun hlast => ?_⟩
    · refine hpass _ ?_
      rw [hthen, nextElement_of_lt (by rw [hm']; exact hmore), hm']
      rfl
    · rw [hu, nextElement_of_ge (by rw [hm']; exact hlast), hm'] at hthen
      have hleaves : LeavesTesting (s.chan c) (((s.chan c).blockDone m g e s.strap reads).swept m.bank) taken.1
          (s.chan c).seq.causes := by
        unfold LeavesTesting Channel.swept Channel.blockDone Channel.progressed
        rw [← hwithheld]
      obtain ⟨hended, hhead, hbudget, htimer, hswept, hds⟩ := sweepEnded_swept hl hx hleaves rfl
      rw [hthen]
      exact ⟨hended, hhead, hbudget, htimer, hswept, by rw [hds]; rfl, by rw [hds]; rfl⟩

/-- Settles O30: withholding ends, and the next element begins or the sweep completes. -/
theorem pauseExpiryGoesOn : Obligations.PauseExpiryGoesOn := by
  intro s c m g ms hl hm hg hp
  obtain ⟨m', hm'⟩ : ∃ m' : Sweep, m' = { m with pause := none } := ⟨_, rfl⟩
  have hstep : pauseExpiry c s = (s.updChan c fun ch =>
      { ch with march := some m', ds := { ch.ds with refreshWithheld := false } }).nextElement c m' g := by
    unfold pauseExpiry
    simp only [hm, hg, hp, Option.isSome_some, if_true]
    rw [State.setMarch, State.updDs, updChan_updChan, hm']
  refine ⟨_, rfl, fun hmore => ?_, fun hlast => ?_⟩
  · rw [nextElement_of_lt (by rw [hm']; exact hmore), updChan_updChan, hm'] at hstep
    rw [hstep]
    refine ⟨onlyChannel_updChan s c _, (chan_updChan_same ..).trans ?_⟩
    simp only [Channel.sweeps, hg]
    rfl
  · rw [nextElement_of_ge (by rw [hm']; exact hlast), hm'] at hstep
    obtain ⟨hended, hhead, hbudget, htimer, hswept, hds⟩ := sweepEnded_swept (bank := m.bank) (log := (s.chan c).log) hl
      (hl.testing_of_march hm)
      (f := fun ch => { ch with march := some { m with pause := none }, ds := { ch.ds with refreshWithheld := false } }) rfl rfl
    rw [hstep]
    exact ⟨hended, hhead, hbudget, htimer, hswept, by rw [hds], by rw [hds]⟩

/-! ### An abandoned sweep (R31, R112, R119) -/

theorem discardSweep_of_sweep {op : DsOp} {live : Bool} {how : MarchOp} (h : op.owner = .sweep live how) :
    op.discardSweep = { op with owner := .sweep false how } := by
  unfold DsOp.discardSweep
  simp only [h]

theorem discardSweep_of_other {op : DsOp} (h : ∀ live how, op.owner ≠ .sweep live how) : op.discardSweep = op := by
  unfold DsOp.discardSweep
  split
  next live how hop => exact absurd hop (h live how)
  next => rfl

/-- The operations of an abandoned sweep complete, and the March Engine does nothing. -/
theorem sweepOpsComplete_abandoned {s : State} {c : Chan} {ops rest : List DsOp} {reads : List Block}
    (hops : (s.chan c).ds.ops = ops ++ rest) (hne : ops ≠ []) (hown : ∀ op ∈ ops, ∃ how, op.owner = .sweep false how)
    (hrest : ∀ op how, rest.head? = some op → op.owner ≠ .sweep false how) (hreads : (readOps ops).length ≤ reads.length) :
    sweepOpsComplete c reads s =
      s.updChan c fun ch => { ch with ds := { ch.ds with ops := rest, written := landAll ops ch.ds.written } } := by
  have hlive : headIsLiveSweep (ops ++ rest) = false := by
    obtain ⟨op, ops', rfl⟩ := List.exists_cons_of_ne_nil hne
    obtain ⟨how, hop⟩ := hown op List.mem_cons_self
    simp [headIsLiveSweep, DsOp.isLiveSweep, hop]
  have hdone := completeSweepOps_abandoned ops s rest reads hops hown hreads
  unfold sweepOpsComplete
  simp only [hops, hlive, sweepRun_append hne hown hrest, hdone, Bool.false_eq_true, if_false]

/-- Settles O22: the expiry truncates the sweep, whose operations then complete as an abandoned sweep's. -/
theorem budgetExpiryInTesting : Obligations.BudgetExpiryInTesting := by
  refine ⟨fun op how => ⟨fun live h => discardSweep_of_sweep h, discardSweep_of_other⟩, ?_, ?_⟩
  · intro s c reads ops rest hops hne hown hrest hreads
    exact exists_onlyChannel rfl (sweepOpsComplete_abandoned hops hne hown hrest hreads) rfl
  · intro s c ms hl hms hx
    have hstep : budgetExpiry c s =
        ((s.updChan c fun ch => ({ ch with seq := { ch.seq with timer := .expired, budgetExpired := true } } : Channel).abandoned).releaseSlot
          c).updChan c (Channel.analysing (s.chan c).seq.nextBank false s.shadow.cap) := by
      rw [budgetExpiry_eq hms, State.expireBudget, seqState_expired, hx]
      simp only
      rw [truncateSweep_eq, State.updSeq, updChan_updChan, updChan_updChan, chan_updChan_same]
      rfl
    obtain ⟨hended, hhead, hchan⟩ := sweepEnded_stream hl hx
      (g := fun ch => ({ ch with seq := { ch.seq with timer := .expired, budgetExpired := true } } : Channel).abandoned)
      (log := (s.chan c).log) (causes := (s.chan c).seq.causes) rfl (s.chan c).seq.nextBank false
    refine ⟨_, congrArg Host.Outcome.next hstep, hended, hhead, ?_, ?_, ?_, ?_, ?_⟩
    · rw [hchan, analysing_seq]; rfl
    · rw [hchan, analysing_seq]; rfl
    · rw [hchan, analysing_seq]; rfl
    · rw [hchan, analysing_ds]; rfl
    · rw [hchan, analysing_ds]; rfl

end Sys2Proof.Machine
end

section
/-! A failing read whose event overflows the Fail Log (O28): the sweep is abandoned where it stands, and the rest of the block
completes without compare (R30, R31, R47; log entry 16). -/

namespace Sys2Proof.Machine

/-! ### The operations that the abandoned sweep leaves -/

theorem discardSweep_write (op : DsOp) : op.discardSweep.write = op.write := by
  unfold DsOp.discardSweep
  split
  · rfl
  · rfl

theorem landAll_discardSweep (ops : List DsOp) : ∀ m, landAll (ops.map DsOp.discardSweep) m = landAll ops m := by
  induction ops with
  | nil => exact fun m => rfl
  | cons op ops ih =>
    intro m
    have hop : landAll [op.discardSweep] m = landAll [op] m := by
      unfold DsOp.discardSweep
      split
      · rfl
      · rfl
    rw [List.map_cons, landAll_cons op.discardSweep, ih, hop, ← landAll_cons]

theorem readOps_discardSweep (ops : List DsOp) :
    (readOps (ops.map DsOp.discardSweep)).length = (readOps ops).length := by
  unfold readOps
  rw [List.filter_map, List.length_map]
  congr 2
  funext op
  rw [Function.comp_apply, discardSweep_write]

section
variable {c : Chan} {m : Sweep} {g : Geometry} {e : Element}

/-- Every event of the block overflows the log (R47). -/
def Overflows (m : Sweep) (g : Geometry) (log : FailLog) : Prop :=
  ∀ ev : FailEvent, ev.bank = m.bank → ev.row = m.row → log.take g.visibleRows ev = (log, true)

theorem Overflows.eventOf {strap : BitVec 8} {x : MarchOp × Block} {ev : FailEvent} {log : FailLog} (h : Overflows m g log)
    (hev : m.eventOf g e strap x = some ev) : log.take g.visibleRows ev = (log, true) := by
  unfold Sweep.eventOf at hev
  dsimp only at hev
  split at hev
  · cases hev
  · cases hev
    exact h _ rfl rfl

theorem overflows_of_full {log : FailLog} (hrow : m.row < g.visibleRows) (hfull : 128 ≤ log.records.length)
    (hnew : ∀ r ∈ log.records, ¬(r.bank = m.bank ∧ r.row = m.row)) : Overflows m g log := by
  intro ev hbank hevrow
  have hunknown : ¬log.knows ev := fun ⟨r, hr, hkey⟩ => hnew r hr (by rw [← hbank, ← hevrow]; exact hkey)
  obtain ⟨h, -⟩ | ⟨-, h, -⟩ | ⟨-, -, h, -⟩ | ⟨-, -, -, h⟩ := take_cases log g.visibleRows ev
  · exact absurd (hevrow ▸ hrow) (Nat.not_lt.mpr h)
  · exact absurd h hunknown
  · exact absurd hfull (Nat.not_le.mpr h)
  · exact h

/-- The state `t` once an overflow has abandoned the sweep of `c` and the block has completed: `f` gives `c` as it left
TESTING, and `ops` are the operations that completed. -/
structure Overflowed (s : State) (c : Chan) (m : Sweep) (ops : List DsOp) (f : Channel → Channel) (t : State) : Prop where
  leaves : LeavesTesting (s.chan c) (f (s.chan c)) (s.chan c).log { (s.chan c).seq.causes with overflow := true }
  seq : (f (s.chan c)).seq = { (s.chan c).seq with causes := { (s.chan c).seq.causes with overflow := true } }
  result : t = ((s.updChan c f).releaseSlot c).updChan c fun ch =>
    { ch.analysing m.bank false s.shadow.cap with
      ds := { (s.chan c).ds with ops := [], refreshWithheld := false, written := landAll ops (s.chan c).ds.written } }

section
variable {s : State} {failed : Bool} {how : MarchOp} {hows : List MarchOp} {reads : List Block}

/-- The stream's head completes before the read that overflows. -/
theorem Overflowed.after_completed {op : DsOp} {ops rest : List DsOp} {f : Channel → Channel} {t : State}
    (h : Overflowed (s.updChan c (Channel.completed op rest)) c m ops f t) :
    Overflowed s c m (op :: ops) (fun ch => f (ch.completed op rest)) t := by
  obtain ⟨hleaves, hseq, hresult⟩ := h
  rw [chan_updChan_same] at hleaves hseq hresult
  refine ⟨hleaves, hseq, ?_⟩
  rw [hresult, updChan_updChan, shadow_updChan]
  rfl

/-- A failing read overflows, and the operations behind it complete without compare. -/
theorem overflowed_here {ev : FailEvent} (hev : (s.chan c).log.take g.visibleRows ev = ((s.chan c).log, true))
    (hrelease : ∀ f : Channel → Channel, ((s.updChan c f).releaseSlot c).chan c = f (s.chan c))
    (hin : InBlock s c m g e failed hows reads) :
    ∃ f, Overflowed s c m (hows.map (m.opOf g e)) f
      (State.completeSweepOps hows.length
        ((s.updChan c (Channel.overflows m ((s.chan c).log.take g.visibleRows ev).1)).truncateSweep c m.bank) c reads) := by
  refine ⟨fun ch => (ch.overflows m (s.chan c).log).abandoned, rfl, rfl, ?_⟩
  have htruncated : (s.updChan c (Channel.overflows m ((s.chan c).log.take g.visibleRows ev).1)).truncateSweep c m.bank =
      ((s.updChan c fun ch => (ch.overflows m (s.chan c).log).abandoned).releaseSlot c).updChan c
        (Channel.analysing m.bank false s.shadow.cap) := by
    rw [truncateSweep_eq, updChan_updChan, shadow_updChan, hev]
  have hds : ((((s.updChan c fun ch => (ch.overflows m (s.chan c).log).abandoned).releaseSlot c).updChan c
      (Channel.analysing m.bank false s.shadow.cap)).chan c).ds =
        { (s.chan c).ds with refreshWithheld := false, ops := (hows.map (m.opOf g e)).map DsOp.discardSweep } := by
    rw [chan_updChan_same, analysing_ds, hrelease, ← hin.ops]
    rfl
  have hrest := completeSweepOps_abandoned ((hows.map (m.opOf g e)).map DsOp.discardSweep)
    (((s.updChan c fun ch => (ch.overflows m (s.chan c).log).abandoned).releaseSlot c).updChan c
      (Channel.analysing m.bank false s.shadow.cap)) [] reads (by rw [hds, List.append_nil])
    (by
      intro op hop
      rw [List.map_map, List.mem_map] at hop
      obtain ⟨how, -, rfl⟩ := hop
      exact ⟨how, congrArg DsOp.owner (discardSweep_of_sweep rfl)⟩)
    (by rw [readOps_discardSweep, readOps_map_opOf]; exact hin.reads)
  rw [List.length_map, List.length_map] at hrest
  rw [htruncated, hrest, updChan_updChan]
  refine updChan_congr _ c ?_
  rw [chan_updChan_same] at hds
  rw [hds, landAll_discardSweep]

end

/-- The operations of a block with a failing read complete, its event overflowing. -/
theorem completeSweepOps_overflow (hows : List MarchOp) : ∀ (s : State) (failed : Bool) (reads : List Block),
    InBlock s c m g e failed hows reads → Overflows m g (s.chan c).log →
    (∀ f : Channel → Channel, ((s.updChan c f).releaseSlot c).chan c = f (s.chan c)) →
    m.eventsOf g e s.strap hows reads ≠ [] →
    ∃ f, Overflowed s c m (hows.map (m.opOf g e)) f (State.completeSweepOps hows.length s c reads) := by
  induction hows with
  | nil => exact fun s failed reads _ _ _ hfails => absurd rfl hfails
  | cons how hows ih =>
    intro s failed reads h hfull hrelease hfails
    have hrelease' (f : Channel → Channel) :
        (((s.updChan c (Channel.completed (m.opOf g e how) (hows.map (m.opOf g e)))).updChan c f).releaseSlot c).chan c =
          f ((s.updChan c (Channel.completed (m.opOf g e how) (hows.map (m.opOf g e)))).chan c) := by
      rw [updChan_updChan, chan_updChan_same]
      exact hrelease fun ch => f (ch.completed _ _)
    have hfull' : Overflows m g ((s.updChan c (Channel.completed (m.opOf g e how) (hows.map (m.opOf g e)))).chan c).log := by
      rw [chan_updChan_same]
      exact hfull
    cases hw : how.writes with
    | true =>
      obtain ⟨hstep, hin⟩ := h.write hw
      rw [eventsOf_write hw] at hfails
      obtain ⟨f, hf⟩ := ih _ failed reads hin hfull' hrelease' hfails
      rw [hstep]
      exact ⟨_, hf.after_completed⟩
    | false =>
      obtain ⟨data, reads', rfl, hstep, hin⟩ := h.read hw
      rw [hstep, hin.compare, strap_updChan]
      cases hev : m.eventOf g e s.strap (how, data) with
      | none =>
        rw [eventsOf_read hw, hev] at hfails
        obtain ⟨f, hf⟩ := ih _ failed reads' hin hfull' hrelease' hfails
        exact ⟨_, hf.after_completed⟩
      | some ev =>
        have htaken := hfull'.eventOf hev
        obtain ⟨f, hf⟩ := overflowed_here htaken hrelease' hin
        simp only [htaken, if_true] at hf ⊢
        exact ⟨_, hf.after_completed⟩

end

/-- Settles O28: the first failing read overflows, since the log is full and knows no record of the block's row. -/
theorem sweepOverflow : Obligations.SweepOverflow := by
  intro s c m g e reads hl hm hg he hops hreads hfails hrow hfull hnew
  have hx : s.seqState c = .testing := hl.testing_of_march hm
  have happ : e.applied ≠ [] := by
    rintro h
    exact hfails (by rw [sweep_events_eq, h]; rfl)
  have hrelease (f : Channel → Channel) : ((s.updChan c f).releaseSlot c).chan c = f (s.chan c) := by
    have := released_chan hl.ordered hx f id c
    rwa [if_pos rfl, chan_updChan_same] at this
  obtain ⟨f, hleaves, hseq, hresult⟩ := completeSweepOps_overflow e.applied s m.passFailed reads
    (inBlock_of_blockOps hm hg he hops hreads.ge) (overflows_of_full hrow hfull hnew) hrelease hfails
  rw [← sweep_blockOps_eq_map he] at hresult
  obtain ⟨hended, hhead, hchan⟩ := sweepEnded hl hx hleaves m.bank false
    (d := { (s.chan c).ds with ops := [], refreshWithheld := false,
                               written := landAll (m.blockOps g) (s.chan c).ds.written }) rfl
  have hstep : sweepOpsComplete c reads s = State.completeSweepOps e.applied.length s c reads := by
    unfold sweepOpsComplete
    simp only [hops, sweepRun_blockOps he happ, headIsLiveSweep_blockOps he happ, if_true]
    rw [State.advanceSweep, hresult, hended.2.2.1]
  refine ⟨_, congrArg Host.Outcome.next (hstep.trans hresult), hended, hhead, ?_⟩
  have hkeeps := (beginAnalysis_keeps ({ f (s.chan c) with seq := { (f (s.chan c)).seq with state := .analysing } } : Channel)
    m.bank false s.shadow.cap).1.log
  have hlog : (f (s.chan c)).log = (s.chan c).log := by rw [hleaves]
  rw [hchan]
  refine ⟨?_, ?_, ?_, ?_, ?_, ?_, rfl, rfl⟩
  · exact beginAnalysis_overflow (by rw [hseq]) m.bank false s.shadow.cap
  · show ((f (s.chan c)).analysing m.bank false s.shadow.cap).seq.fullySwept = _
    rw [analysing_seq, hseq]
  · show ((f (s.chan c)).analysing m.bank false s.shadow.cap).seq.budgetExpired = _
    rw [analysing_seq, hseq]
  · show ((f (s.chan c)).analysing m.bank false s.shadow.cap).seq.timer = _
    rw [analysing_seq, hseq]
  · exact hkeeps.1.trans (by rw [hlog])
  · exact (hkeeps.map_eq (fun r => (r.bank, r.row, r.columns, r.count)) fun _ _ _ => rfl).trans (by rw [hlog])

end Sys2Proof.Machine
end

section
/-! A channel leaves DONE, OPEN and DRAINING: a report write placed on it is abandoned, and its start set opens (R99, R155,
R156). -/

namespace Sys2Proof.Machine

section
variable {u : State} {c : Chan}

/-! ### The writer's moves by the placed channel -/

theorem settle_writer (u : State) : u.settle.writer = u.abandonWrite.maybeStart.writer := by
  unfold State.settle
  rw [raiseReady_eq]

theorem maybeStart_write {w : Write} (h : u.maybeStart.writer.write = some w) :
    u.writer.write = some w ∨ u.writer.write = none ∧ (u.seqState w.chan).reportable = true := by
  unfold State.maybeStart State.startWrite at h
  dsimp only at h
  split at h
  next hdue =>
    have hidle : u.writer.write = none := by
      simp only [Bool.and_eq_true, Option.isNone_iff_eq_none] at hdue
      exact hdue.1.2
    split at h
    next => exact .inl h
    next d hd =>
      have hchan := (handReportBlock_frame (u.updWriter fun x => { x with pendingPublish := false })
        { chan := d, base := u.placeBase d, blocks := u.reportBlocks, index := 0, blockAt := .waiting,
          startSet := allChans.filter fun d => u.seqState d == .done }).1
      rw [h, Option.map_some, Option.some.injEq] at hchan
      refine .inr ⟨hidle, ?_⟩
      rw [hchan]
      exact placeChannel_reportable hd
  next => exact .inl h

theorem not_reportable_of_not_carries {x : SeqState} (h : x.carriesReport = false) : x.reportable = false := by
  cases x
  case done | opened => cases h
  all_goals rfl

theorem endWrite_writer (u : State) (w : Write) : (u.endWrite w).writer = { u.writer with write := none } := by
  have fold (l : List Chan) : ∀ x : State,
      (l.foldl (fun x c => if x.seqState c = .done then x.openChannel c else x) x).writer = x.writer := by
    induction l with
    | nil => exact fun _ => rfl
    | cons d l ih =>
      intro x
      rw [List.foldl_cons, ih]
      split
      · rfl
      · rfl
  show ({ (w.startSet.foldl (fun x c => if x.seqState c = .done then x.openChannel c else x) u).writer with
    write := none } : Writer) = _
  rw [fold]

theorem abandonWrite_of_none (h : u.writer.write = none) : u.abandonWrite = u := by
  rw [State.abandonWrite, h]

theorem abandonWrite_of_carries {w : Write} (h : u.writer.write = some w) (hx : (u.seqState w.chan).carriesReport = true) :
    u.abandonWrite = u := by
  rw [State.abandonWrite, h]
  exact if_pos hx

theorem abandonWrite_of_lost {w : Write} (h : u.writer.write = some w) (hx : (u.seqState w.chan).carriesReport = false) :
    u.abandonWrite = (u.mapOps w.chan DsOp.discardReport).endWrite w := by
  rw [State.abandonWrite, h]
  exact if_neg (by rw [hx]; exact Bool.false_ne_true)

theorem mapOps_eq (u : State) (c : Chan) (f : DsOp → DsOp) :
    u.mapOps c f = u.updChan c fun ch => { ch with ds := { ch.ds with ops := ch.ds.ops.map f } } := rfl

theorem seqState_mapOps (d : Chan) (f : DsOp → DsOp) : (u.mapOps c f).seqState d = u.seqState d := seqState_updDs u c d _

/-- The write on the channel is abandoned (R156). -/
theorem abandonWrite_chan (hx : (u.seqState c).carriesReport = false) :
    u.abandonWrite.chan c = { u.chan c with ds := { (u.chan c).ds with
      ops := if u.writer.write.map Write.chan = some c then (u.chan c).ds.ops.map DsOp.discardReport
             else (u.chan c).ds.ops } } := by
  have hdone : u.seqState c ≠ .done := by
    rintro h
    rw [h] at hx
    cases hx
  cases hw : u.writer.write with
  | none => rw [abandonWrite_of_none hw]; rfl
  | some w =>
    by_cases hc : w.chan = c
    · subst hc
      rw [abandonWrite_of_lost hw hx, endWrite_chan, if_neg fun h => hdone (by rw [← seqState_mapOps]; exact h.2), mapOps_chan,
        if_pos (show Option.map Write.chan (some w) = some w.chan from rfl)]
    · have hne : (some w).map Write.chan ≠ some c := fun h => hc (Option.some.inj h)
      rw [if_neg hne]
      cases hcarry : (u.seqState w.chan).carriesReport with
      | true => rw [abandonWrite_of_carries hw hcarry]
      | false =>
        rw [abandonWrite_of_lost hw hcarry, endWrite_chan, if_neg fun h => hdone (by rw [← seqState_mapOps]; exact h.2),
          mapOps_eq, chan_updChan_ne u _ (Ne.symm hc)]

theorem settle_chan_left (hx : (u.seqState c).carriesReport = false) :
    u.settle.chan c = { u.chan c with ds := { (u.chan c).ds with
      ops := if u.writer.write.map Write.chan = some c then (u.chan c).ds.ops.map DsOp.discardReport
             else (u.chan c).ds.ops } } := by
  have hchan := abandonWrite_chan hx
  rw [State.settle, raiseReady_chan, maybeStart_chan_of_not_reportable, hchan]
  rw [State.seqState, hchan]
  exact not_reportable_of_not_carries hx

/-- No write stands on a channel that has left DONE, OPEN and DRAINING. -/
theorem settle_write_ne (hx : (u.seqState c).carriesReport = false) (w : Write) (hw : u.settle.writer.write = some w) :
    w.chan ≠ c := by
  rintro rfl
  rw [settle_writer] at hw
  obtain hw | ⟨-, hrep⟩ := maybeStart_write hw
  · cases hwrite : u.writer.write with
    | none => rw [abandonWrite_of_none hwrite, hwrite] at hw; cases hw
    | some w' =>
      cases hcarry : (u.seqState w'.chan).carriesReport with
      | true =>
        rw [abandonWrite_of_carries hwrite hcarry, hwrite] at hw
        cases hw
        rw [hx] at hcarry
        cases hcarry
      | false =>
        rw [abandonWrite_of_lost hwrite hcarry, (endWrite_frame _ w').1] at hw
        cases hw
  · rw [State.seqState, abandonWrite_chan hx] at hrep
    have := not_reportable_of_not_carries hx
    rw [State.seqState] at this
    rw [this] at hrep
    cases hrep

/-- What a report write's end makes of a channel of its start set stands through the next start. -/
theorem maybeStart_record (d : Chan) : (u.maybeStart.chan d).seq = (u.chan d).seq ∧ (u.maybeStart.chan d).port = (u.chan d).port := by
  have h := ((bystander_maybeStart u).2.2.2 d).stands ((maybeStart_frame u).2.2 d)
  exact ⟨h.seq, h.port⟩

/-- A channel of the start set opens with the write's end, and stands so (R99). -/
theorem endWrite_opens {w : Write} {d : Chan} (hd : d ∈ w.startSet) (hdone : u.seqState d = .done) :
    ((u.endWrite w).maybeStart.chan d).seq = { (u.chan d).seq with state := .opened } ∧
    ((u.endWrite w).maybeStart.chan d).port =
      { (u.chan d).port with credit := 16, outbound := (u.chan d).port.outbound ++ [.restore 16] } := by
  obtain ⟨hseq, hport⟩ := maybeStart_record (u := u.endWrite w) d
  rw [hseq, hport, endWrite_chan, if_pos ⟨hd, hdone⟩, openChannel_chan, if_pos rfl]
  exact ⟨rfl, rfl⟩

/-- With no publish pending and every DONE channel in the start set, no write follows (R152). -/
theorem endWrite_idle {w : Write} (hpending : u.writer.pendingPublish = false)
    (hall : ∀ d, u.seqState d = .done → d ∈ w.startSet) : (u.endWrite w).maybeStart.writer.write = none := by
  have hauto : (u.endWrite w).autoDue = false := by
    rw [← Bool.not_eq_true, autoDue_iff]
    rintro ⟨-, d, hd⟩
    rw [State.seqState, endWrite_chan] at hd
    split at hd
    next => rw [openChannel_chan, if_pos rfl] at hd; cases hd
    next hstays => exact hstays ⟨hall d hd, hd⟩
  unfold State.maybeStart
  rw [hauto, endWrite_writer, hpending, Bool.or_false, Bool.and_false]
  exact congrArg Writer.write (endWrite_writer u w)

theorem settle_abandoned (hx : (u.seqState c).carriesReport = false) : WriteAbandoned u u.settle c := by
  intro w hw hc
  subst hc
  have hlost := abandonWrite_of_lost hw hx
  refine ⟨fun d hd hne hdone => ?_, settle_write_ne hx, fun hpending hall => ?_⟩
  · have hdone' : (u.mapOps w.chan DsOp.discardReport).seqState d = .done := (seqState_mapOps d _).trans hdone
    have hother : (u.mapOps w.chan DsOp.discardReport).chan d = u.chan d := chan_updChan_ne u _ hne
    have hopens := endWrite_opens hd hdone'
    rw [hother] at hopens
    unfold State.settle
    rw [raiseReady_chan, hlost]
    exact hopens
  · rw [settle_writer, hlost]
    refine endWrite_idle hpending fun d hd => ?_
    rw [seqState_mapOps] at hd
    refine hall d ?_ hd
    rintro rfl
    rw [hd] at hx
    cases hx

end

section
variable {s u t : State} {c : Chan}

/-- What the abandonment makes of the start set depends on the channels that are DONE. -/
theorem WriteAbandoned.of_done (h : WriteAbandoned u t c) (hwriter : u.writer = s.writer)
    (hdone : ∀ d, d ≠ c → (u.seqState d = .done ↔ s.seqState d = .done))
    (hother : ∀ d, d ≠ c → s.seqState d = .done → u.chan d = s.chan d) : WriteAbandoned s t c := by
  intro w hw hc
  obtain ⟨hopens, hne, hidle⟩ := h w (hwriter.symm ▸ hw) hc
  refine ⟨fun d hd hdc hx => ?_, hne, fun hpending hall => hidle (hwriter.symm ▸ hpending) fun d hdc hx => ?_⟩
  · rw [← hother d hdc hx]
    exact hopens d hd hdc ((hdone d hdc).mpr hx)
  · exact hall d hdc ((hdone d hdc).mp hx)

theorem WriteAbandoned.of_same (h : WriteAbandoned u t c) (hwriter : u.writer = s.writer)
    (hother : ∀ d, d ≠ c → u.chan d = s.chan d) : WriteAbandoned s t c :=
  h.of_done hwriter (fun d hd => by rw [State.seqState, hother d hd]; rfl) fun d hd _ => hother d hd

/-- A drain ends and the retest begins (R81, R86, R108, R156). -/
theorem beginRetest_begun (hq : (s.chan c).port.queue = []) : RetestBegun s (s.beginRetest c) c := by
  obtain ⟨u, hu⟩ : ∃ u, u = ({ s with shadow := s.shadow.free c } : State).updChan c (Channel.retested s.settledBudget) :=
    ⟨_, rfl⟩
  have ht : s.beginRetest c = u.settle := by rw [beginRetest_eq, hu]
  have hchan : u.chan c = (s.chan c).retested s.settledBudget := by
    rw [hu]
    exact chan_updChan_same ({ s with shadow := s.shadow.free c } : State) c _
  have hother (d : Chan) (hd : d ≠ c) : u.chan d = s.chan d := by
    rw [hu]
    exact chan_updChan_ne ({ s with shadow := s.shadow.free c } : State) _ hd
  have hwriter : u.writer = s.writer := by rw [hu]; rfl
  have hx : (u.seqState c).carriesReport = false := by rw [State.seqState, hchan]; rfl
  have hfinal := settle_chan_left hx
  rw [hwriter, hchan] at hfinal
  obtain ⟨⟨hreset, hstrap, hshadow, hloader, hpending, hready⟩, harbiter, hfault, hrecord⟩ := bystander_settle u
  rw [ht]
  have hframe : u = { s with chans := u.chans, shadow := s.shadow.free c } := by rw [hu]; rfl
  refine ⟨?_, ?_, hshadow.trans (by rw [hframe]; rfl), hreset.trans (by rw [hframe]), hstrap.trans (by rw [hframe]),
    hloader.trans (by rw [hframe]), harbiter.trans (by rw [hframe]), hpending.trans (by rw [hframe]),
    fun h => hready (by rw [hframe]; exact h), hfault.trans (by rw [hframe]), settle_write_ne hx,
    (settle_abandoned hx).of_same hwriter hother, fun d hd => ?_⟩
  · rw [hfinal]
    simp only [Channel.retested, Channel.identifies, Sequencer.retest, timerUnder_eq, settledBudget_eq]
    rfl
  · rw [hfinal]
    exact hq
  · rw [← hother d hd]
    exact hrecord d

end

end Sys2Proof.Machine
end

section
/-! Serving the queue of a port (R11 to R17, R84 to R86, R107, R138, R142 to R145). -/

namespace Sys2Proof.Machine

/-! ### One block of a request -/

/-- The operation of block `i` of a request. -/
def Request.opAt (r : Request) (ch : Channel) (i : Nat) : Option DsOp :=
  portOp ch (if r.isWrite then some (r.block i) else none) (r.addr + i)

/-- The slot of block `i` of a request. -/
def Request.slotAt (r : Request) (ch : Channel) (store : List Host.Cell) (i : Nat) : Option Block :=
  match ch.dest (r.addr + i) with
  | .direct _ _ _ | .spare _ _ _ => none
  | .shadow e col => some (if r.isWrite then r.block i else shadowReadBlock store e col)
  | .outside => some 0

/-- The shadow store after block `i` of a request. -/
def Request.storeAt (r : Request) (ch : Channel) (m : List Host.Cell) (i : Nat) : List Host.Cell :=
  match ch.dest (r.addr + i) with
  | .shadow e col => if r.isWrite then shadowWriteBlock m e col (r.block i) else m
  | .direct _ _ _ | .spare _ _ _ | .outside => m

/-- Whether one of the blocks `l` of a request has an indication. -/
def Request.anyOf (r : Request) (ch : Channel) (p : Channel → Nat → Bool) (l : List Nat) : Bool := l.any fun i => p ch (r.addr + i)

theorem requestOps_eq (ch : Channel) (r : Request) : requestOps ch r = (List.range r.blocks).filterMap (r.opAt ch) := rfl

theorem requestSlots_eq (store : List Host.Cell) (ch : Channel) (r : Request) :
    requestSlots store ch r = (List.range r.blocks).map (r.slotAt ch store) := rfl

theorem requestStore_eq (store : List Host.Cell) (ch : Channel) (r : Request) :
    requestStore store ch r = (List.range r.blocks).foldl (r.storeAt ch) store := rfl

theorem addresses_any (ch : Channel) (r : Request) (p : Channel → Nat → Bool) :
    (addresses r).any (p ch) = r.anyOf ch p (List.range r.blocks) := by
  rw [addresses, List.any_map]
  rfl

section
variable {r : Request} {ch : Channel} {m : List Host.Cell} {i : Nat}

theorem dest_eq_outside_iff (ch : Channel) (a : Nat) : ch.dest a = .outside ↔ ¬a < ch.visibleBlocks := by
  unfold Channel.dest Channel.visibleBlocks
  cases ch.geometry with
  | none => simp
  | some g => exact g.dest_eq_outside_iff ch.remap a

theorem isOutside_eq (ch : Channel) (a : Nat) : isOutside ch a = decide (ch.dest a = .outside) := by
  rw [isOutside, ← decide_not, decide_eq_decide, dest_eq_outside_iff]

theorem slotAt_of_write (h : r.isWrite = true) (m m' : List Host.Cell) : r.slotAt ch m i = r.slotAt ch m' i := by
  unfold Request.slotAt
  simp only [h, if_true]

theorem slotAt_of_not_shadow (h : isShadowed ch (r.addr + i) = false) (m m' : List Host.Cell) :
    r.slotAt ch m i = r.slotAt ch m' i := by
  unfold Request.slotAt
  unfold isShadowed at h
  cases hd : ch.dest (r.addr + i) with
  | shadow e col => rw [hd] at h; cases h
  | _ => rfl

theorem storeAt_of_read (h : r.isWrite = false) : r.storeAt ch m i = m := by
  unfold Request.storeAt
  simp only [h, Bool.false_eq_true, if_false]
  split
  · rfl
  · rfl
  · rfl
  · rfl

theorem storeAt_of_not_shadow (h : isShadowed ch (r.addr + i) = false) : r.storeAt ch m i = m := by
  unfold Request.storeAt
  unfold isShadowed at h
  cases hd : ch.dest (r.addr + i) with
  | shadow e col => rw [hd] at h; cases h
  | _ => rfl

/-- A block has an operation exactly when its slot waits. -/
theorem opAt_isSome_iff : (r.opAt ch i).isSome = true ↔ r.slotAt ch m i = none := by
  unfold Request.opAt portOp Request.slotAt
  cases ch.dest (r.addr + i) <;> simp

end

theorem requestOps_ne_nil_iff (ch : Channel) (r : Request) (m : List Host.Cell) :
    requestOps ch r ≠ [] ↔ none ∈ requestSlots m ch r := by
  rw [requestOps_eq, requestSlots_eq, ne_eq, List.filterMap_eq_nil_iff, List.mem_map]
  push Not
  refine exists_congr fun i => and_congr_right fun _ => ?_
  rw [← opAt_isSome_iff, ← Option.ne_none_iff_isSome]

/-! ### The blocks that are served -/

/-- The shadow store changes. -/
def State.updStore (s : State) (f : List Host.Cell → List Host.Cell) : State :=
  { s with shadow := { s.shadow with store := f s.shadow.store } }

/-- The service record of a request once its blocks `l` have been served, a SHADOW block from `store`. -/
def Service.serves (l : List Nat) (r : Request) (store : List Host.Cell) (ch : Channel) (v : Service) : Service :=
  { v with
    slots := v.slots ++ l.map (r.slotAt ch store),
    remapped := v.remapped || r.anyOf ch isRemapped l,
    shadow := v.shadow || r.anyOf ch isShadowed l,
    outside := v.outside || r.anyOf ch isOutside l }

/-- Channel `ch` once the blocks `l` of its request have been served. -/
def Channel.serves (l : List Nat) (r : Request) (store : List Host.Cell) (ch : Channel) : Channel :=
  { ch with
    ds := { ch.ds with ops := ch.ds.ops ++ l.filterMap (r.opAt ch) },
    port := { ch.port with
      service := ch.port.service.map (Service.serves l r store ch),
      range := ch.port.range || r.anyOf ch isOutside l } }

section
variable {s : State} {c : Chan} {r : Request}

theorem anyOf_cons (r : Request) (ch : Channel) (p : Channel → Nat → Bool) (i : Nat) (l : List Nat) :
    r.anyOf ch p (i :: l) = (r.anyOf ch p [i] || r.anyOf ch p l) := by
  simp [Request.anyOf]

theorem serves_nil (store : List Host.Cell) (ch : Channel) : ch.serves [] r store = ch := by
  have hid : Service.serves [] r store ch = id := by
    funext v
    simp [Service.serves, Request.anyOf]
  unfold Channel.serves
  rw [hid, Option.map_id]
  simp [Request.anyOf]

theorem service_serves_cons (i : Nat) (l : List Nat) {m m' m'' : List Host.Cell} (ch : Channel)
    (hi : r.slotAt ch m i = r.slotAt ch m'' i) (hl : r.slotAt ch m' = r.slotAt ch m'') (v : Service) :
    (v.serves [i] r m ch).serves l r m' ch = v.serves (i :: l) r m'' ch := by
  unfold Service.serves
  simp only [hl, List.map_cons, List.map_nil, hi, anyOf_cons r ch _ i l, List.append_assoc, List.singleton_append,
    Bool.or_assoc]

theorem serves_cons (i : Nat) (l : List Nat) {m m' m'' : List Host.Cell} (ch : Channel) (hi : r.slotAt ch m i = r.slotAt ch m'' i)
    (hl : r.slotAt ch m' = r.slotAt ch m'') :
    (ch.serves [i] r m).serves l r m' = ch.serves (i :: l) r m'' := by
  have hservice : (ch.port.service.map (Service.serves [i] r m ch)).map (Service.serves l r m' ch) =
      ch.port.service.map (Service.serves (i :: l) r m'' ch) := by
    rw [Option.map_map]
    exact congrArg (fun f => Option.map f ch.port.service) (funext fun v => service_serves_cons i l ch hi hl v)
  have hops : (ch.ds.ops ++ [i].filterMap (r.opAt ch)) ++ l.filterMap (r.opAt ch) =
      ch.ds.ops ++ (i :: l).filterMap (r.opAt ch) := by
    rw [List.append_assoc, ← List.filterMap_append, List.singleton_append]
  have hrange : ((ch.port.range || r.anyOf ch isOutside [i]) || r.anyOf ch isOutside l) =
      (ch.port.range || r.anyOf ch isOutside (i :: l)) := by
    rw [anyOf_cons r ch isOutside i l, Bool.or_assoc]
  show ({ ch with
    ds := { ch.ds with ops := (ch.ds.ops ++ [i].filterMap (r.opAt ch)) ++ l.filterMap (r.opAt ch) },
    port := { ch.port with
      service := (ch.port.service.map (Service.serves [i] r m ch)).map (Service.serves l r m' ch),
      range := (ch.port.range || r.anyOf ch isOutside [i]) || r.anyOf ch isOutside l } } : Channel) = _
  rw [hservice, hops, hrange]
  rfl

/-- The store holds no report block of the channel (R86). -/
def State.StoreClear (s : State) (c : Chan) : Prop :=
  ∀ w e col, s.writer.write = some w → w.chan = c → w.blockAt ≠ .store e col

theorem storeReport_of_clear (h : s.StoreClear c) : s.storeReport c = s := by
  unfold State.storeReport State.storeWrite
  split
  next w hw =>
    split
    next hc =>
      split
      next e col hat => exact absurd hat (h w e col hw hc)
      all_goals rfl
    next => rfl
  next => rfl

theorem storeReport_of_store {w : Write} {e col : Nat} (hw : s.writer.write = some w) (hc : w.chan = c)
    (hat : w.blockAt = .store e col) :
    s.storeReport c = { s with
      shadow := { s.shadow with store := shadowWriteBlock s.shadow.store e col w.data },
      writer := { s.writer with write := some { w with blockAt := .settled } } } := by
  unfold State.storeReport State.storeWrite
  rw [hw]
  simp only [hc, if_true, hat]
  rfl

theorem storeClear_storeReport (s : State) (c : Chan) : (s.storeReport c).StoreClear c := by
  by_cases h : s.StoreClear c
  · rwa [storeReport_of_clear h]
  · unfold State.StoreClear at h
    push Not at h
    obtain ⟨w, e, col, hw, hc, hat⟩ := h
    rw [storeReport_of_store hw hc hat]
    rintro w' e' col' hw' -
    obtain rfl := Option.some.inj hw'
    exact nofun

theorem storeReport_updChan (f : Channel → Channel) (d : Chan) :
    (s.updChan d f).storeReport c = (s.storeReport c).updChan d f := by
  by_cases h : s.StoreClear c
  · rw [storeReport_of_clear h]
    exact storeReport_of_clear h
  · unfold State.StoreClear at h
    push Not at h
    obtain ⟨w, e, col, hw, hc, hat⟩ := h
    rw [storeReport_of_store hw hc hat]
    exact storeReport_of_store (s := s.updChan d f) hw hc hat

theorem storeReport_updPort (f : Port → Port) (d : Chan) :
    (s.updPort d f).storeReport c = (s.storeReport c).updPort d f := storeReport_updChan _ d

theorem storeReport_holders (s : State) (c : Chan) : (s.storeReport c).shadow.holders = s.shadow.holders ∧
    (s.storeReport c).shadow.cap = s.shadow.cap := by
  rw [storeReport_eq]
  exact ⟨rfl, rfl⟩

/-- The part as it is when the blocks `l` meet it: a SHADOW block among them has the store serve the report block that was
handed to it before (R86). -/
def State.metBy (s : State) (c : Chan) (r : Request) (l : List Nat) : State :=
  if r.anyOf (s.chan c) isShadowed l then s.storeReport c else s

theorem serves_one (i : Nat) (m : List Host.Cell) (ch : Channel) :
    ch.serves [i] r m = { ch with
      ds := { ch.ds with ops := ch.ds.ops ++ (r.opAt ch i).toList },
      port := { ch.port with
        service := ch.port.service.map fun v => v.add (r.slotAt ch m i) (isRemapped ch (r.addr + i))
          (isShadowed ch (r.addr + i)) (isOutside ch (r.addr + i)),
        range := ch.port.range || isOutside ch (r.addr + i) } } := by
  have hany (p : Channel → Nat → Bool) : r.anyOf ch p [i] = p ch (r.addr + i) := by
    simp [Request.anyOf]
  have hops : [i].filterMap (r.opAt ch) = (r.opAt ch i).toList := by
    rw [List.filterMap_cons, List.filterMap_nil]
    cases r.opAt ch i <;> rfl
  have hservice : Service.serves [i] r m ch = fun v => v.add (r.slotAt ch m i) (isRemapped ch (r.addr + i))
      (isShadowed ch (r.addr + i)) (isOutside ch (r.addr + i)) := by
    funext v
    unfold Service.serves
    rw [hany, hany, hany]
    rfl
  unfold Channel.serves
  rw [hops, hservice, hany]

theorem updChan_addSlot (f : Channel → Channel) (slot : Option Block) (remapped shadow outside : Bool) :
    (s.updChan c f).addSlot c slot remapped shadow outside = s.updChan c fun ch =>
      { f ch with port := { (f ch).port with service := (f ch).port.service.map fun v => v.add slot remapped shadow outside } } :=
  updChan_updChan s c f fun ch =>
    { ch with port := { ch.port with service := ch.port.service.map fun v => v.add slot remapped shadow outside } }

/-- A block at memory (R12, R16). -/
theorem serveBlock_memory {i : Nat} {op : DsOp} (hop : r.opAt (s.chan c) i = some op) :
    s.serveBlock c r i = (s.handOver c op).addSlot c none (isRemapped (s.chan c) (r.addr + i)) false false := by
  unfold Request.opAt portOp at hop
  unfold State.serveBlock isRemapped
  dsimp only
  split at hop
  next hd =>
    rw [hd, ← Option.some.inj hop]
    rfl
  next hd =>
    rw [hd, ← Option.some.inj hop]
    rfl
  next => cases hop
  next => cases hop

/-- A SHADOW block (R15, R84 to R86). -/
theorem serveBlock_shadow {i e col : Nat} (hd : (s.chan c).dest (r.addr + i) = .shadow e col) :
    s.serveBlock c r i = ((s.storeReport c).updStore fun m => r.storeAt (s.chan c) m i).addSlot c
      (r.slotAt (s.chan c) (s.storeReport c).shadow.store i) true true false := by
  unfold State.serveBlock State.serveShadow State.accessShadow Request.storeAt Request.slotAt
  simp only [hd]
  cases r.isWrite with
  | true => rfl
  | false => rfl

theorem serveBlock_eq (i : Nat) :
    s.serveBlock c r i = ((s.metBy c r [i]).updStore fun m => r.storeAt (s.chan c) m i).updChan c
      (Channel.serves [i] r (s.metBy c r [i]).shadow.store) := by
  have hshadow : r.anyOf (s.chan c) isShadowed [i] = isShadowed (s.chan c) (r.addr + i) := by simp [Request.anyOf]
  have hmem {op : DsOp} (hop : r.opAt (s.chan c) i = some op) (hnot : isShadowed (s.chan c) (r.addr + i) = false)
      (hin : isOutside (s.chan c) (r.addr + i) = false) :
      s.serveBlock c r i = ((s.metBy c r [i]).updStore fun m => r.storeAt (s.chan c) m i).updChan c
        (Channel.serves [i] r (s.metBy c r [i]).shadow.store) := by
    have hstore : (fun m => r.storeAt (s.chan c) m i) = id := funext fun m => storeAt_of_not_shadow hnot
    have hslot : r.slotAt (s.chan c) s.shadow.store i = none := opAt_isSome_iff.mp (by rw [hop]; rfl)
    rw [serveBlock_memory hop, State.metBy, hshadow, hnot, if_neg Bool.false_ne_true, hstore]
    refine (updChan_addSlot _ none _ false false).trans (updChan_congr s c ?_)
    rw [serves_one, hop, hnot, hin, hslot, Bool.or_false]
    rfl
  cases hd : (s.chan c).dest (r.addr + i) with
  | direct bank row col =>
    exact hmem (by rw [Request.opAt, portOp, hd]) (by rw [isShadowed, hd]) (by rw [isOutside_eq, hd]; rfl)
  | spare bank row col =>
    exact hmem (by rw [Request.opAt, portOp, hd]) (by rw [isShadowed, hd]) (by rw [isOutside_eq, hd]; rfl)
  | shadow e col =>
    have hyes : isShadowed (s.chan c) (r.addr + i) = true := by rw [isShadowed, hd]
    rw [serveBlock_shadow hd, State.metBy, hshadow, hyes, if_pos rfl]
    refine updChan_congr _ c (f := fun ch => { ch with port := { ch.port with
      service := ch.port.service.map fun v => v.add (r.slotAt (s.chan c) (s.storeReport c).shadow.store i) true true false } }) ?_
    have hchan : ((s.storeReport c).updStore fun m => r.storeAt (s.chan c) m i).chan c = s.chan c := storeReport_chan s c c
    have hremap : isRemapped (s.chan c) (r.addr + i) = true := by rw [isRemapped, hd]
    have hin : isOutside (s.chan c) (r.addr + i) = false := by rw [isOutside_eq, hd]; rfl
    have hop : r.opAt (s.chan c) i = none := by rw [Request.opAt, portOp, hd]
    rw [hchan, serves_one, hop, hyes, hremap, hin, Bool.or_false, Option.toList_none, List.append_nil]
  | outside =>
    have hnot : isShadowed (s.chan c) (r.addr + i) = false := by rw [isShadowed, hd]
    have hstore : (fun m => r.storeAt (s.chan c) m i) = id := funext fun m => storeAt_of_not_shadow hnot
    have hremap : isRemapped (s.chan c) (r.addr + i) = false := by rw [isRemapped, hd]
    have hout : isOutside (s.chan c) (r.addr + i) = true := by rw [isOutside_eq, hd]; rfl
    have hop : r.opAt (s.chan c) i = none := by rw [Request.opAt, portOp, hd]
    have hslot : r.slotAt (s.chan c) s.shadow.store i = some 0 := by rw [Request.slotAt, hd]
    have hstep : s.serveBlock c r i =
        (s.updPort c fun p => { p with range := true }).addSlot c (some 0) false false true := by
      unfold State.serveBlock
      simp only [hd]
    rw [hstep, State.metBy, hshadow, hnot, if_neg Bool.false_ne_true, hstore]
    refine (updChan_addSlot _ (some 0) false false true).trans (updChan_congr s c ?_)
    rw [serves_one, hop, hnot, hremap, hout, hslot, Bool.or_true, Option.toList_none, List.append_nil]

/-! ### All the blocks of a request -/

theorem metBy_shared (s : State) (c : Chan) (r : Request) (l : List Nat) :
    (s.metBy c r l).chans = s.chans ∧ (s.metBy c r l).shadow.holders = s.shadow.holders ∧
      (s.metBy c r l).shadow.cap = s.shadow.cap := by
  unfold State.metBy
  split
  · rw [storeReport_eq]
    exact ⟨rfl, rfl, rfl⟩
  · exact ⟨rfl, rfl, rfl⟩

@[simp] theorem chan_updStore (f : List Host.Cell → List Host.Cell) (d : Chan) : (s.updStore f).chan d = s.chan d := rfl

theorem storeAt_serves (l : List Nat) (m : List Host.Cell) (ch : Channel) : r.storeAt (ch.serves l r m) = r.storeAt ch := rfl

theorem updStore_updChan (f : Channel → Channel) (g : List Host.Cell → List Host.Cell) :
    (s.updChan c f).updStore g = (s.updStore g).updChan c f := rfl

theorem updStore_updStore (f g : List Host.Cell → List Host.Cell) :
    (s.updStore f).updStore g = s.updStore fun m => g (f m) := rfl

/-- A store that is clear meets the blocks as it is. -/
theorem metBy_of_clear (h : s.StoreClear c) (l : List Nat) : s.metBy c r l = s := by
  unfold State.metBy
  rw [storeReport_of_clear h, ite_self]

theorem metBy_updChan (f : Channel → Channel) (l : List Nat) (hf : isShadowed (f (s.chan c)) = isShadowed (s.chan c)) :
    (s.updChan c f).metBy c r l = (s.metBy c r l).updChan c f := by
  have hany : r.anyOf (f (s.chan c)) isShadowed l = r.anyOf (s.chan c) isShadowed l := by
    unfold Request.anyOf
    rw [hf]
  unfold State.metBy
  rw [chan_updChan_same, storeReport_updChan, hany]
  by_cases hl : r.anyOf (s.chan c) isShadowed l = true
  · rw [if_pos hl, if_pos hl]
  · rw [if_neg hl, if_neg hl]

theorem serveBlocks_eq (l : List Nat) : ∀ s : State,
    l.foldl (fun x i => x.serveBlock c r i) s =
      ((s.metBy c r l).updStore fun m => l.foldl (r.storeAt (s.chan c)) m).updChan c
        (Channel.serves l r (s.metBy c r l).shadow.store) := by
  induction l with
  | nil =>
    intro s
    exact (updChan_of_eq (serves_nil _ _)).symm
  | cons i l ih =>
    intro s
    rw [List.foldl_cons, serveBlock_eq, ih, chan_updChan_same]
    have hany : r.anyOf (s.chan c) isShadowed (i :: l) =
        (r.anyOf (s.chan c) isShadowed [i] || r.anyOf (s.chan c) isShadowed l) := anyOf_cons ..
    cases hi : isShadowed (s.chan c) (r.addr + i) with
    | true =>
      have hone : r.anyOf (s.chan c) isShadowed [i] = true := by simp [Request.anyOf, hi]
      have hall : s.metBy c r (i :: l) = s.storeReport c := if_pos (by rw [hany, hone, Bool.true_or])
      rw [show s.metBy c r [i] = s.storeReport c from if_pos hone, hall,
        metBy_of_clear (show (((s.storeReport c).updStore fun m => r.storeAt (s.chan c) m i).updChan c
          (Channel.serves [i] r (s.storeReport c).shadow.store)).StoreClear c from storeClear_storeReport s c)]
      rw [updStore_updChan, updStore_updStore, updChan_updChan, chan_updStore, storeReport_chan, storeAt_serves]
      refine updChan_congr _ c ?_
      have hchan : ((s.storeReport c).updStore fun m => l.foldl (r.storeAt (s.chan c)) (r.storeAt (s.chan c) m i)).chan c =
        s.chan c := storeReport_chan s c c
      rw [hchan]
      refine serves_cons i l (s.chan c) rfl ?_
      funext j
      cases hw : r.isWrite with
      | true => exact slotAt_of_write hw _ _
      | false => exact congrArg (fun m => r.slotAt (s.chan c) m j) (storeAt_of_read hw)
    | false =>
      have hone : r.anyOf (s.chan c) isShadowed [i] = false := by simp [Request.anyOf, hi]
      have hall : s.metBy c r (i :: l) = s.metBy c r l := by
        unfold State.metBy
        rw [hany, hone, Bool.false_or]
      have hstep : s.metBy c r [i] = s := if_neg (by rw [hone]; exact Bool.false_ne_true)
      have hid : (fun m => r.storeAt (s.chan c) m i) = id := funext fun m => storeAt_of_not_shadow hi
      rw [hall, hstep, hid]
      have hsame : (s.updStore id).updChan c (Channel.serves [i] r s.shadow.store) =
          s.updChan c (Channel.serves [i] r s.shadow.store) := rfl
      rw [hsame, metBy_updChan _ l rfl, updStore_updChan, updChan_updChan, chan_updStore, storeAt_serves]
      have hfold : (fun m => (i :: l).foldl (r.storeAt (s.chan c)) m) = fun m => l.foldl (r.storeAt (s.chan c)) m := by
        funext m
        rw [List.foldl_cons, storeAt_of_not_shadow hi]
      have hchan : ((s.metBy c r l).updStore fun m => l.foldl (r.storeAt (s.chan c)) m).chan c = s.chan c :=
        congrArg (fun x => x[c]) (metBy_shared s c r l).1
      rw [hfold]
      refine updChan_congr _ c ?_
      rw [hchan, shadow_updChan]
      exact serves_cons i l (s.chan c) (slotAt_of_not_shadow hi _ _) rfl

end

end Sys2Proof.Machine
end

section
/-! The service of a request begins, ends, and the queue is served on (R16, R17, R107, R138, R142 to R145). -/

namespace Sys2Proof.Machine

section
variable {s t : State} {c : Chan} {r : Request}

/-! ### The service of the head request begins -/

/-- The service record of a request whose blocks have been translated. -/
def Request.serviceOn (r : Request) (ch : Channel) (store : List Host.Cell) (formed : Bool) : Service :=
  { slots := requestSlots store ch r, remapped := (addresses r).any (isRemapped ch),
    shadow := (addresses r).any (isShadowed ch), outside := (addresses r).any (isOutside ch), formed := formed }

/-- A channel with the request in service. -/
def Channel.inService (r : Request) (store : List Host.Cell) (ch : Channel) : Channel :=
  { ch with
    ds := { ch.ds with ops := ch.ds.ops ++ requestOps ch r },
    port := { ch.port with
      service := some (r.serviceOn ch store false), range := ch.port.range || (addresses r).any (isOutside ch) } }

/-- The part as the blocks of the request meet it (R86). -/
def State.met (s : State) (c : Chan) (r : Request) : State := s.metBy c r (List.range r.blocks)

theorem met_eq (s : State) (c : Chan) (r : Request) :
    s.met c r = if (addresses r).any (isShadowed (s.chan c)) then s.storeReport c else s := by
  rw [addresses_any]
  rfl

theorem beginService_eq (s : State) (c : Chan) (r : Request) :
    s.beginService c r = ((s.met c r).updStore fun m => requestStore m (s.chan c) r).updChan c
      (Channel.inService r (s.met c r).shadow.store) := by
  have hchan : ((s.met c r).updStore fun m => requestStore m (s.chan c) r).chan c = s.chan c :=
    congrArg (fun x => x[c]) (metBy_shared s c r _).1
  unfold State.beginService State.updPort
  rw [serveBlocks_eq, metBy_updChan _ _ rfl, updStore_updChan, updChan_updChan, chan_updChan_same]
  refine updChan_congr ((s.met c r).updStore fun m => requestStore m (s.chan c) r) c ?_
  rw [hchan]
  unfold Channel.serves Service.serves Service.start Channel.inService Request.serviceOn
  simp only [Option.map_some, List.nil_append, Bool.false_or, addresses_any]
  rfl

theorem beginService_chan (s : State) (c : Chan) (r : Request) :
    (s.beginService c r).chan c = (s.chan c).inService r (s.met c r).shadow.store := by
  rw [beginService_eq, chan_updChan_same]
  exact congrArg (Channel.inService r (s.met c r).shadow.store) (congrArg (fun x => x[c]) (metBy_shared s c r _).1)

theorem serviceComplete_iff (s : State) (c : Chan) (r : Request) :
    ((s.beginService c r).chan c).port.serviceComplete = true ↔ requestOps (s.chan c) r = [] := by
  rw [beginService_chan, ← not_iff_not, ← ne_eq (requestOps _ _), requestOps_ne_nil_iff _ _ (s.met c r).shadow.store]
  simp [Port.serviceComplete, Channel.inService, Request.serviceOn, Service.complete]

/-- The service begins: a read with nothing at memory has its response formed in the same step (R143, R145). -/
def State.serviceStarted (s : State) (c : Chan) (r : Request) : State :=
  if r.isWrite = false ∧ requestOps (s.chan c) r = [] then (s.beginService c r).formResponse c r else s.beginService c r

theorem phaseOf_eq {x : SeqState} (h : x = .opened ∨ x = .draining) : phaseOf x = if x = .opened then 1 else 2 := by
  obtain rfl | rfl := h
  · rfl
  · rfl

theorem seqState_beginService (s : State) (c : Chan) (r : Request) : (s.beginService c r).seqState c = s.seqState c := by
  rw [State.seqState, beginService_chan]
  rfl

/-- The frame of a service that begins: the store, and the report block that it served. -/
theorem beginService_frame (s : State) (c : Chan) (r : Request) :
    let s' := if (addresses r).any (isShadowed (s.chan c)) then s.storeReport c else s
    s.beginService c r = { s' with chans := (s.beginService c r).chans,
                                   shadow := { s.shadow with store := requestStore s'.shadow.store (s.chan c) r } } ∧
      ∀ d, d ≠ c → (s.beginService c r).chan d = s.chan d := by
  intro s'
  have hmet : s.met c r = s' := met_eq s c r
  obtain ⟨hchans, hholders, hcap⟩ := metBy_shared s c r (List.range r.blocks)
  have hshadow (m : List Host.Cell) : ({ (s.met c r).shadow with store := m } : Shadow) = { s.shadow with store := m } := by
    simp only [State.met, hholders, hcap]
  constructor
  · rw [beginService_eq, ← hmet]
    exact congrArg (fun sh => ({ ((s.met c r).updStore fun m => requestStore m (s.chan c) r).updChan c
      (Channel.inService r (s.met c r).shadow.store) with shadow := sh } : State)) (hshadow _)
  · intro d hd
    rw [beginService_eq, chan_updChan_ne ((s.met c r).updStore fun m => requestStore m (s.chan c) r) _ hd]
    exact congrArg (fun x => x[d]) hchans

/-- A channel whose read has all its data: the response is formed, and carries the pending flags (R143 to R145). -/
def Channel.answered (x : SeqState) (r : Request) (store : List Host.Cell) (ch : Channel) : Channel :=
  { ch with
    ds := { ch.ds with ops := ch.ds.ops ++ requestOps ch r },
    port := { ch.port with
      service := some (r.serviceOn ch store true), rejected := false, range := false,
      outbound := ch.port.outbound ++
        [.response r.tag r.lenCode
          { phase := if x = .opened then 1 else 2, rejected := ch.port.rejected,
            range := ch.port.range || (addresses r).any (isOutside ch), remapped := (addresses r).any (isRemapped ch),
            shadow := (addresses r).any (isShadowed ch), error := false }
          ((requestSlots store ch r).map fun o => o.getD 0)] } }

theorem formResponse_eq (hx : s.seqState c = .opened ∨ s.seqState c = .draining) :
    (s.beginService c r).formResponse c r = ((s.met c r).updStore fun m => requestStore m (s.chan c) r).updChan c
      (Channel.answered (s.seqState c) r (s.met c r).shadow.store) := by
  have hchan : ((s.met c r).updStore fun m => requestStore m (s.chan c) r).chan c = s.chan c :=
    congrArg (fun x => x[c]) (metBy_shared s c r _).1
  unfold State.formResponse
  rw [seqState_beginService]
  dsimp only
  rw [beginService_eq, State.updPort, updChan_updChan]
  refine updChan_congr ((s.met c r).updStore fun m => requestStore m (s.chan c) r) c ?_
  rw [hchan]
  have hrange : ((addresses r).any (isOutside (s.chan c)) ||
      ((s.chan c).port.range || (addresses r).any (isOutside (s.chan c)))) =
      ((s.chan c).port.range || (addresses r).any (isOutside (s.chan c))) := by
    cases (addresses r).any (isOutside (s.chan c)) <;> simp
  simp only [Channel.inService, Request.serviceOn, Bool.false_eq_true, if_false, Port.sendResponse, Port.response,
    Channel.answered, phaseOf_eq hx, hrange]

theorem serviceBegun (hx : s.seqState c = .opened ∨ s.seqState c = .draining) :
    ServiceBegun s (s.serviceStarted c r) c r := by
  obtain ⟨hframe, hother⟩ := beginService_frame s c r
  have hops := requestOps_ne_nil_iff (s.chan c) r (s.met c r).shadow.store
  by_cases h : r.isWrite = false ∧ requestOps (s.chan c) r = []
  · have hstarted : s.serviceStarted c r = (s.beginService c r).formResponse c r := if_pos h
    have hanswer := hstarted.trans (formResponse_eq hx)
    have hbegin := beginService_eq s c r
    refine ⟨?_, fun d hd => ?_, ?_⟩
    · have hsame : s.serviceStarted c r = { s.beginService c r with chans := (s.serviceStarted c r).chans } := by
        rw [hbegin, hanswer]
        rfl
      exact hsame.trans (congrArg (fun x : State => { x with chans := (s.serviceStarted c r).chans }) hframe)
    · rw [← hother d hd, hanswer, hbegin]
      rw [chan_updChan_ne ((s.met c r).updStore fun m => requestStore m (s.chan c) r) _ hd,
        chan_updChan_ne ((s.met c r).updStore fun m => requestStore m (s.chan c) r) _ hd]
    · rw [hanswer, chan_updChan_same, ← met_eq, if_neg]
      · have hchan : ((s.met c r).updStore fun m => requestStore m (s.chan c) r).chan c = s.chan c :=
          congrArg (fun x => x[c]) (metBy_shared s c r _).1
        rw [hchan]
        rfl
      · rw [← hops]
        rintro (hw | hne)
        · rw [hw] at h
          exact Bool.false_ne_true h.1.symm
        · exact hne h.2
  · have hstarted : s.serviceStarted c r = s.beginService c r := if_neg h
    rw [hstarted]
    refine ⟨hframe, hother, ?_⟩
    rw [beginService_chan, ← met_eq, if_pos]
    · rfl
    · rw [← hops]
      by_contra hnone
      rw [not_or, Bool.not_eq_true, not_ne_iff] at hnone
      exact h hnone

theorem ServiceBegun.queue (h : ServiceBegun s t c r) : (t.chan c).port.queue = (s.chan c).port.queue := by
  obtain ⟨-, -, hchan⟩ := h
  rw [hchan]
  exact (apply_ite Port.queue _ _ _).trans (ite_self _)

theorem ServiceBegun.credit (h : ServiceBegun s t c r) : (t.chan c).port.credit = (s.chan c).port.credit := by
  obtain ⟨-, -, hchan⟩ := h
  rw [hchan]
  exact (apply_ite Port.credit _ _ _).trans (ite_self _)

theorem ServiceBegun.seqState (h : ServiceBegun s t c r) : t.seqState c = s.seqState c := by
  obtain ⟨-, -, hchan⟩ := h
  rw [State.seqState, hchan]
  rfl

/-! ### The queue is served on -/

theorem leaves_chan (s : State) (c : Chan) :
    ((leaves s c).chan c).port = { (s.chan c).port with
      queue := (s.chan c).port.queue.tail, service := none,
      credit := if s.seqState c = .opened then (s.chan c).port.credit + 1 else (s.chan c).port.credit,
      outbound := if s.seqState c = .opened then creditReturned (s.chan c).port.headBegun (s.chan c).port.outbound
                  else (s.chan c).port.outbound } := by
  rw [leaves, chan_updPort_same]

theorem seqState_leaves (s : State) (c d : Chan) : (leaves s c).seqState d = s.seqState d := by
  rw [leaves, State.seqState, seq_updPort]
  rfl

/-- A report block that joins the stream leaves the ports and the sequencers. -/
theorem carryWaitingReport_record (s : State) (c d : Chan) :
    ((s.carryWaitingReport c).chan d).port = (s.chan d).port ∧ (s.carryWaitingReport c).seqState d = s.seqState d := by
  have hrecord (w : Write) : ((s.carryReportBlock w).chan d).port = (s.chan d).port ∧
      (s.carryReportBlock w).seqState d = s.seqState d := by
    have hx := (carryReportBlock_frame s w).2.2.2.2 d
    exact ⟨(((bystander_carryReportBlock s w).2.2.2 d).stands hx).port, hx⟩
  unfold State.carryWaitingReport
  split
  next w hw =>
    split
    next => exact hrecord w
    next => exact ⟨rfl, rfl⟩
  next => exact ⟨rfl, rfl⟩

theorem serves_iff (x : SeqState) : x.serves = true ↔ x = .opened ∨ x = .draining := by
  cases x <;> simp [SeqState.serves]

theorem serviceHead_of_none (h : (s.chan c).port.service = none) : s.serviceHead c r = s.beginService c r := by
  rw [State.serviceHead, h]
  rfl

theorem serveQueue_nil (fuel : Nat) (hx : s.seqState c = .opened ∨ s.seqState c = .draining)
    (hq : (s.chan c).port.queue = []) :
    State.serveQueue (fuel + 1) s c = if s.seqState c = .draining then s.beginRetest c else s := by
  rw [State.serveQueue, if_pos ((serves_iff _).mpr hx), hq]

theorem serveQueue_cons {rest : List Request} (fuel : Nat) (hx : s.seqState c = .opened ∨ s.seqState c = .draining)
    (hq : (s.chan c).port.queue = r :: rest) (hv : (s.chan c).port.service = none) :
    State.serveQueue (fuel + 1) s c =
      if r.isWrite = true ∧ requestOps (s.chan c) r = [] then
        State.serveQueue fuel ((leaves (s.serviceStarted c r) c).carryWaitingReport c) c
      else s.serviceStarted c r := by
  rw [State.serveQueue, if_pos ((serves_iff _).mpr hx), hq]
  dsimp only
  rw [serviceHead_of_none hv]
  have hcomplete := serviceComplete_iff s c r
  by_cases hops : requestOps (s.chan c) r = []
  · rw [if_pos (hcomplete.mpr hops)]
    cases hw : r.isWrite with
    | true =>
      have hstarted : s.serviceStarted c r = s.beginService c r := if_neg fun h => by rw [hw] at h; cases h.1
      rw [if_pos rfl, if_pos ⟨rfl, hops⟩, requestLeaves_eq, hstarted]
    | false =>
      have hstarted : s.serviceStarted c r = (s.beginService c r).formResponse c r := if_pos ⟨hw, hops⟩
      rw [if_neg Bool.false_ne_true, if_neg fun h => Bool.false_ne_true h.1, hstarted]
  · have hstarted : s.serviceStarted c r = s.beginService c r := if_neg fun h => hops h.2
    rw [if_neg (mt hcomplete.mp hops), if_neg fun h => hops h.2, hstarted]

theorem serves_serveQueue (fuel : Nat) : ∀ s : State, (s.chan c).port.queue.length < fuel →
    (s.chan c).port.service = none → s.seqState c = .opened ∨ s.seqState c = .draining →
    Serves s (State.serveQueue fuel s c) c := by
  induction fuel with
  | zero => exact fun s h => absurd h (Nat.not_lt_zero _)
  | succ fuel ih =>
    intro s hfuel hv hx
    cases hq : (s.chan c).port.queue with
    | nil =>
      rw [serveQueue_nil fuel hx hq]
      obtain ho | hd := hx
      · rw [if_neg (by rw [ho]; decide)]
        exact .idle s c ho hq
      · rw [if_pos hd]
        exact .drained s _ c hd hq (beginRetest_begun hq)
    | cons r rest =>
      rw [serveQueue_cons fuel hx hq hv]
      have hbegun : ServiceBegun s (s.serviceStarted c r) c r := serviceBegun hx
      by_cases h : r.isWrite = true ∧ requestOps (s.chan c) r = []
      · rw [if_pos h]
        obtain ⟨hw, hops⟩ := h
        obtain ⟨hport, hseq⟩ := carryWaitingReport_record (leaves (s.serviceStarted c r) c) c c
        refine .goesOn s _ _ _ c r rest hq hw hops hbegun (carryWaitingReport_first _ c) (ih _ ?_ ?_ ?_)
        · rw [hport, leaves_chan, hbegun.queue, hq]
          rw [hq] at hfuel
          exact Nat.lt_of_succ_lt_succ hfuel
        · rw [hport, leaves_chan]
        · rw [hseq, seqState_leaves, hbegun.seqState]
          exact hx
      · rw [if_neg h]
        refine .waits s _ c r rest hq ?_ hbegun
        by_contra hnone
        rw [not_or, Bool.not_eq_false, not_ne_iff] at hnone
        exact h hnone

theorem serves_pump (hv : (s.chan c).port.service = none) (hx : s.seqState c = .opened ∨ s.seqState c = .draining) :
    Serves s (s.pump c) c := serves_serveQueue _ s (Nat.lt_succ_self _) hv hx

end

end Sys2Proof.Machine
end

section
/-! Arrivals (R139): discarded, queued behind a request that waits, or served at once (O37, O39 to O41). -/

namespace Sys2Proof.Machine

section
variable {s : State} {p : Chan} {r : Request}

/-! ### The lines of R139 -/

/-- The port once an arrival has spent its credit, if it had one (R137). -/
def Port.arrived (begun : Bool) (q : Port) : Port :=
  { q with credit := q.credit - 1, headBegun := q.headBegun || (begun && !q.outbound.isEmpty) }

theorem requestArrival_eq {header : Vector Byte 5} {data : List Block} {begun : Bool} (h : s.inReset = false) :
    requestArrival p header data begun s = (s.updPort p (Port.arrived begun)).judgeArrival p
      (decide (0 < (s.chan p).port.credit)) (parseMessage header data) := by
  rw [requestArrival, if_neg (by rw [h]; exact Bool.false_ne_true)]
  rfl

theorem seqState_updPort' (f : Port → Port) (d : Chan) : (s.updPort p f).seqState d = s.seqState d := seqState_updPort s p d f

theorem judgeArrival_of_not_serves (had : Bool) (x : Option Request) (h : ¬(s.seqState p = .opened ∨ s.seqState p = .draining)) :
    s.judgeArrival p had x = s.updPort p Port.countDiscard := by
  unfold State.judgeArrival
  rw [if_neg (mt (serves_iff _).mp h)]
  rfl

theorem judgeArrival_of_no_credit (x : Option Request) : s.judgeArrival p false x = s.updPort p Port.countDiscard := by
  unfold State.judgeArrival
  split
  · rfl
  · rfl

theorem judgeArrival_of_unsound (h : s.seqState p = .opened ∨ s.seqState p = .draining) :
    s.judgeArrival p true none = s.discard p (s.seqState p == .opened) := by
  rw [State.judgeArrival, if_pos ((serves_iff _).mpr h)]
  rfl

theorem judgeArrival_of_sound (h : s.seqState p = .opened ∨ s.seqState p = .draining) :
    s.judgeArrival p true (some r) = ((s.accept p r).detect p r).pump p := by
  rw [State.judgeArrival, if_pos ((serves_iff _).mpr h)]
  rfl

/-- The detector considers the write, and hands over no escape (R147). -/
theorem detect_of_none {runs : Prop} [Decidable runs]
    (hruns : runs ↔ s.seqState p = .opened ∧ strapEscapes s.strap = true ∧ r.isWrite = true)
    (h : runs → ((s.chan p).port.detector.see ((s.chan p).isCandidate r) (escapeWord r)).2 = none) :
    s.detect p r = s.updPort p fun q =>
      { q with detector := if runs then ((s.chan p).port.detector.see ((s.chan p).isCandidate r) (escapeWord r)).1
                           else q.detector } := by
  have hcond : (r.isWrite && strapEscapes s.strap && s.seqState p == .opened) = true ↔ runs := by
    rw [hruns]
    simp only [Bool.and_eq_true, beq_iff_eq]
    tauto
  unfold State.detect
  by_cases hr : runs
  · rw [if_pos (hcond.mpr hr)]
    simp only [h hr, hr, if_true]
  · rw [if_neg (mt hcond.mp hr)]
    simp only [hr, if_false]
    exact (updChan_of_eq rfl).symm

end

/-- Settles O37. -/
theorem arrivalDiscarded : Obligations.ArrivalDiscarded := by
  intro s p header data begun q begun' takes
  refine ⟨fun hreset => congrArg Host.Outcome.next (if_pos hreset), fun hreset hline => ?_, fun hreset hx hcredit hparse => ?_⟩
  · have hstep : requestArrival p header data begun s = s.updPort p fun q => (q.arrived begun).countDiscard := by
      rw [requestArrival_eq hreset]
      have hdiscard : (s.updPort p (Port.arrived begun)).updPort p Port.countDiscard =
          s.updPort p fun q => (q.arrived begun).countDiscard := updPort_updPort s p _ _
      obtain hnot | hnone | ⟨hdraining, hparse⟩ := hline
      · rw [judgeArrival_of_not_serves _ _ (by rw [seqState_updPort']; exact hnot), hdiscard]
      · rw [decide_eq_false (by rw [show (s.chan p).port.credit = 0 from hnone]; exact Nat.lt_irrefl 0),
          judgeArrival_of_no_credit, hdiscard]
      · cases had : decide (0 < (s.chan p).port.credit) with
        | false => rw [judgeArrival_of_no_credit, hdiscard]
        | true =>
          rw [hparse, judgeArrival_of_unsound (by rw [seqState_updPort']; exact .inr hdraining), seqState_updPort', hdraining]
          exact hdiscard
    exact exists_onlyChannel rfl hstep rfl
  · have hstep : requestArrival p header data begun s = s.updPort p fun q => (q.arrived begun).countDiscard.returnCredit := by
      rw [requestArrival_eq hreset, decide_eq_true hcredit, hparse,
        judgeArrival_of_unsound (by rw [seqState_updPort']; exact .inl hx), seqState_updPort', hx]
      exact updPort_updPort s p _ _
    refine exists_onlyChannel rfl hstep ?_
    have hcount : (s.chan p).port.credit - 1 + 1 = (s.chan p).port.credit := Nat.sub_add_cancel hcredit
    simp only [returnCredit_eq, Port.countDiscard, Port.arrived, hcount]
    rfl

/-! ### An accepted request -/

section
variable {s : State} {p : Chan} {r : Request}

/-- The port once the request has been accepted and the detector has considered it. -/
def Port.accepted (begun : Bool) (r : Request) (detector : Detector) (q : Port) : Port :=
  { q with credit := q.credit - 1, headBegun := q.headBegun || (begun && !q.outbound.isEmpty), queue := q.queue ++ [r],
           detector := detector }

/-- An accepted request with no escape: it joins the queue, which is served (R139, R141, R147). -/
theorem requestArrival_accepted {header : Vector Byte 5} {data : List Block} {begun : Bool} {runs : Prop} [Decidable runs]
    (hreset : s.inReset = false) (hx : s.seqState p = .opened ∨ s.seqState p = .draining) (hcredit : 0 < (s.chan p).port.credit)
    (hparse : parseMessage header data = some r)
    (hruns : runs ↔ s.seqState p = .opened ∧ strapEscapes s.strap = true ∧ r.isWrite = true)
    (hsee : runs → ((s.chan p).port.detector.see ((s.chan p).isCandidate r) (escapeWord r)).2 = none) :
    requestArrival p header data begun s = (s.updPort p (Port.accepted begun r
      (if runs then ((s.chan p).port.detector.see ((s.chan p).isCandidate r) (escapeWord r)).1
       else (s.chan p).port.detector))).pump p := by
  obtain ⟨u, hu⟩ : ∃ u, u = (s.updPort p (Port.arrived begun)).accept p r := ⟨_, rfl⟩
  have hchan : u.chan p = { s.chan p with port := { (s.chan p).port.arrived begun with
      queue := (s.chan p).port.queue ++ [r] } } := by
    rw [hu, State.accept, updPort_updPort]
    exact chan_updChan_same s p _
  have hstate : u.seqState p = s.seqState p := by rw [State.seqState, hchan]; rfl
  have hstrap : u.strap = s.strap := by rw [hu]; rfl
  have hdetect := detect_of_none (s := u) (p := p) (r := r) (runs := runs) (by rw [hruns, hstate, hstrap])
    (by rw [hchan]; exact hsee)
  rw [requestArrival_eq hreset, decide_eq_true hcredit, hparse,
    judgeArrival_of_sound (by rw [seqState_updPort']; exact hx), ← hu, hdetect, hchan, hu, State.accept, updPort_updPort,
    updPort_updPort]
  refine congrArg (fun x : State => x.pump p) (updChan_congr s p ?_)
  rfl

theorem pump_of_headWaits (hx : s.seqState p = .opened ∨ s.seqState p = .draining) (h : (s.chan p).port.headWaits) :
    s.pump p = s := by
  obtain ⟨r, rest, v, hq, hv, hwaits⟩ := h
  have hhead : s.serviceHead p r = s := by
    rw [State.serviceHead, hv]
    exact if_neg Bool.false_ne_true
  unfold State.pump
  rw [State.serveQueue, if_pos ((serves_iff _).mpr hx), hq]
  dsimp only
  rw [hhead]
  by_cases hcomplete : (s.chan p).port.serviceComplete = true
  · rw [if_pos hcomplete]
    obtain hslot | ⟨hformed, hread⟩ := hwaits
    · rw [Port.serviceComplete, hv, Option.map_some, Option.getD_some, Service.complete, List.all_eq_true] at hcomplete
      exact absurd (hcomplete none hslot) Bool.false_ne_true
    · rw [hread, if_neg Bool.false_ne_true, State.formResponse]
      refine updChan_of_eq ?_
      simp only [hv, hformed, if_true]
  · rw [if_neg hcomplete]

end

/-- Settles O39. -/
theorem arrivalAccepted : Obligations.ArrivalAccepted := by
  intro s p header data begun r hreset q runs hx hcredit hparse hwaits hsee
  have hstep := requestArrival_accepted (begun := begun) (runs := runs) hreset hx hcredit hparse Iff.rfl hsee
  obtain ⟨r0, rest, v, hq, hv, hwait⟩ := hwaits
  rw [pump_of_headWaits (by rw [seqState_updPort']; exact hx)
    (by rw [chan_updPort_same]; exact ⟨r0, rest ++ [r], v, congrArg (· ++ [r]) hq, hv, hwait⟩)] at hstep
  exact exists_onlyChannel rfl hstep rfl

/-! ### A request that meets an empty queue -/

section
variable {s : State} {p : Chan} {r : Request}

theorem updPort_accepted (h : (s.chan p).port.queue = []) (begun : Bool) (d : Detector) :
    s.updPort p (Port.accepted begun r d) = s.updPort p fun q => { q with
      credit := q.credit - 1, queue := [r], headBegun := q.headBegun || (begun && !q.outbound.isEmpty), detector := d } := by
  refine updChan_congr s p ?_
  simp only [Port.accepted, h, List.nil_append]

theorem pump_single (hx : s.seqState p = .opened ∨ s.seqState p = .draining) (hq : (s.chan p).port.queue = [r])
    (hv : (s.chan p).port.service = none) :
    s.pump p = if r.isWrite = true ∧ requestOps (s.chan p) r = [] then
        State.serveQueue 1 ((leaves (s.serviceStarted p r) p).carryWaitingReport p) p
      else s.serviceStarted p r := by
  unfold State.pump
  rw [hq]
  exact serveQueue_cons 1 hx hq hv

/-- The write in progress is not on the channel, or its block does not wait (R17). -/
def State.NoneWaits (s : State) (p : Chan) : Prop :=
  ∀ w, s.writer.write = some w → w.chan = p → w.blockAt ≠ .waiting

theorem noneWaits_storeReport (h : s.NoneWaits p) (c : Chan) : (s.storeReport c).NoneWaits p := by
  by_cases hclear : s.StoreClear c
  · rwa [storeReport_of_clear hclear]
  · unfold State.StoreClear at hclear
    push Not at hclear
    obtain ⟨w, e, col, hw, hc, hat⟩ := hclear
    rw [storeReport_of_store hw hc hat]
    rintro w' hw' -
    obtain rfl := Option.some.inj hw'
    exact nofun

theorem ServiceBegun.noneWaits {t : State} (h : ServiceBegun s t p r) (hs : s.NoneWaits p) : t.NoneWaits p := by
  obtain ⟨hframe, -, -⟩ := h
  rw [hframe]
  dsimp only
  split
  · exact noneWaits_storeReport hs p
  · exact hs

theorem carryWaitingReport_of_noneWaits (h : s.NoneWaits p) : s.carryWaitingReport p = s := (carryWaitingReport_first s p).2 h

/-- A write with no block at memory leaves at once, the queue then being empty. -/
theorem pump_single_write (hx : s.seqState p = .opened) (hq : (s.chan p).port.queue = [r])
    (hv : (s.chan p).port.service = none) (hw : r.isWrite = true) (hops : requestOps (s.chan p) r = []) (hwait : s.NoneWaits p) :
    s.pump p = leaves (s.serviceStarted p r) p := by
  have hbegun : ServiceBegun s (s.serviceStarted p r) p r := serviceBegun (.inl hx)
  have hx' : (leaves (s.serviceStarted p r) p).seqState p = .opened := by rw [seqState_leaves, hbegun.seqState, hx]
  rw [pump_single (.inl hx) hq hv, if_pos ⟨hw, hops⟩,
    carryWaitingReport_of_noneWaits (s := leaves (s.serviceStarted p r) p) (hbegun.noneWaits hwait),
    serveQueue_nil 0 (.inl hx') (by rw [leaves_chan, hbegun.queue, hq]; rfl), if_neg (by rw [hx']; decide)]

theorem isWrite_of_parse {header : Vector Byte 5} (h : parseMessage header [] = some r) : r.isWrite = false := by
  obtain ⟨hsound, hunsound⟩ := parseMessage_eq header []
  by_cases hs : soundMessage (headerNat header) ([] : List Block).length
  · rw [hsound hs] at h
    obtain ⟨-, ⟨hkind, -⟩ | ⟨-, hlen⟩⟩ := hs
    · rw [← Option.some.inj h, requestOf, hkind]
      rfl
    · exact absurd hlen (Nat.succ_ne_zero _).symm
  · rw [hunsound hs] at h
    cases h

end

/-- Settles O40. -/
theorem readServed : Obligations.ReadServed := by
  constructor
  · intro m e col i hi
    rw [shadowReadBlock, extractLsb'_blockOfBytes (by simp [blockOffsets]), List.getD_eq_getElem?_getD, List.getElem?_map,
      blockOffsets, List.getElem?_range hi]
    exact congrArg (shadowRead m) (Nat.add_assoc ..).symm
  · intro s p header begun r hreset q hx hcredit hparse hq hv
    have hread := isWrite_of_parse hparse
    have hstep := requestArrival_accepted (begun := begun) (runs := False) hreset hx hcredit hparse
      ⟨False.elim, fun h => Bool.false_ne_true (hread ▸ h.2.2)⟩ False.elim
    rw [if_neg not_false, updPort_accepted hq] at hstep
    obtain ⟨s', hs'⟩ : ∃ s' : State, s' = s.updPort p fun q => { q with
        credit := q.credit - 1, queue := [r], headBegun := q.headBegun || (begun && !q.outbound.isEmpty) } := ⟨_, rfl⟩
    have heq : (s.updPort p fun q => { q with
        credit := q.credit - 1, queue := [r], headBegun := q.headBegun || (begun && !q.outbound.isEmpty),
        detector := (s.chan p).port.detector }) = s' := by
      rw [hs']
      exact updChan_congr s p rfl
    have hx' : s'.seqState p = .opened ∨ s'.seqState p = .draining := by rw [hs', seqState_updPort']; exact hx
    rw [heq, pump_single hx' (by rw [hs', chan_updPort_same]) (by rw [hs', chan_updPort_same]; exact hv),
      if_neg fun h => Bool.false_ne_true (hread ▸ h.1)] at hstep
    exact ⟨_, congrArg Host.Outcome.next hstep, hs' ▸ serviceBegun hx'⟩

/-- The bytes of a buffer after a block of it has been replaced (R85). -/
theorem shadowWriteBlock_bytes (m : List Host.Cell) (e col : Nat) (data : Block) :
    (∀ i < 64, shadowRead (shadowWriteBlock m e col data) (e * 16384 + col * 64 + i) = data.extractLsb' (8 * i) 8) ∧
    ∀ a, ¬(e * 16384 + col * 64 ≤ a ∧ a < e * 16384 + col * 64 + 64) →
      shadowRead (shadowWriteBlock m e col data) a = shadowRead m a := by
  refine ⟨fun i hi => ?_, fun a ha => ?_⟩
  · have := shadowRead_shadowWriteBlock_inside m e col data hi
    rwa [shadowAddr, ← Nat.add_assoc] at this
  · refine shadowRead_shadowWriteBlock_outside m e col data fun i hi h => ha ?_
    have h : e * 16384 + (col * 64 + i) = a := h
    omega

/-- Settles O41. -/
theorem singleBlockWrite : Obligations.SingleBlockWrite := by
  refine ⟨shadowWriteBlock_bytes, fun s p => ⟨fun w e col hw hc hat => storeReport_of_store hw hc hat, storeReport_of_clear⟩, ?_⟩
  · intro s p header data begun r hreset ch q runs seen hx hcredit hparse hw hq hv hsee hwaiting s'
    have hstep := requestArrival_accepted (begun := begun) (runs := runs) hreset (.inl hx) hcredit hparse
      ⟨fun h => ⟨hx, h, hw⟩, fun h => h.2.1⟩ hsee
    rw [updPort_accepted hq] at hstep
    have hx' : s'.seqState p = .opened := hx ▸ seqState_updPort' _ p
    have hchan : s'.chan p = { s.chan p with port := (s'.chan p).port } := by rw [chan_updPort_same]
    have hq' : (s'.chan p).port.queue = [r] := by rw [chan_updPort_same]
    have hv' : (s'.chan p).port.service = none := by rw [chan_updPort_same]; exact hv
    have hops : requestOps (s'.chan p) r = requestOps ch r := by rw [hchan]; rfl
    have hbegun : ServiceBegun s' (s'.serviceStarted p r) p r := serviceBegun (.inl hx')
    have hwait : s'.NoneWaits p := hwaiting
    have hleaves (hnone : requestOps ch r = []) : s'.pump p = leaves (s'.serviceStarted p r) p :=
      pump_single_write hx' hq' hv' hw (hops.trans hnone) hwait
    have hstays (hsome : requestOps ch r ≠ []) : s'.pump p = s'.serviceStarted p r := by
      rw [pump_single (.inl hx') hq' hv', if_neg fun h => hsome (hops ▸ h.2)]
    refine ⟨s'.pump p, congrArg Host.Outcome.next hstep, fun hsome => hstays hsome ▸ hbegun, fun hnone =>
      ⟨_, hbegun, hleaves hnone, ?_, ?_⟩, fun hlen e col hdest => ?_⟩
    · rw [hleaves hnone, leaves_chan, hbegun.queue, hq']
      rfl
    · rw [hleaves hnone, leaves_chan, hbegun.seqState, if_pos hx', hbegun.credit, chan_updPort_same]
      exact Nat.sub_add_cancel hcredit
    · have hshadow : (s'.pump p).shadow = (s'.serviceStarted p r).shadow := by
        by_cases hnone : requestOps ch r = []
        · rw [hleaves hnone]
          rfl
        · rw [hstays hnone]
      have hyes : (addresses r).any (isShadowed (s'.chan p)) = true := by
        refine List.any_eq_true.mpr ⟨r.addr, ?_, ?_⟩
        · rw [addresses, hlen]
          exact List.mem_cons_self
        · rw [hchan]
          unfold isShadowed
          rw [show ({ s.chan p with port := (s'.chan p).port } : Channel).dest r.addr = .shadow e col from hdest]
      obtain ⟨hframe, -, -⟩ := hbegun
      have hstore : (s'.storeReport p).shadow.store = (s.storeReport p).shadow.store := by
        show ((s.updPort p _).storeReport p).shadow.store = _
        rw [storeReport_updPort]
        rfl
      have hwrite : requestStore (s.storeReport p).shadow.store (s'.chan p) r =
          shadowWriteBlock (s.storeReport p).shadow.store e col (r.block 0) := by
        rw [requestStore_eq, Request.blocks, hlen, hchan]
        show r.storeAt _ _ 0 = _
        unfold Request.storeAt
        rw [Nat.add_zero, show ({ s.chan p with port := (s'.chan p).port } : Channel).dest r.addr = .shadow e col from hdest]
        simp only [hw, if_true]
      rw [if_pos hyes, hstore, hwrite] at hframe
      have hfinal := hshadow.trans (congrArg State.shadow hframe)
      obtain ⟨hinside, houtside⟩ := shadowWriteBlock_bytes (s.storeReport p).shadow.store e col (r.block 0)
      rw [hfinal]
      exact ⟨rfl, rfl, hinside, houtside⟩

end Sys2Proof.Machine
end

section
/-! What a completed port block or a sent response brings about: O42, O43 and O44. -/

namespace Sys2Proof.Machine

/-! ### The open slots of a request (R16) -/

theorem fillSlot_append {filled : List (Option Block)} (h : none ∉ filled) (data : Block) (left : List (Option Block)) :
    fillSlot data (filled ++ none :: left) = filled ++ some data :: left := by
  induction filled with
  | nil => rfl
  | cons x filled ih =>
    rw [List.mem_cons, not_or] at h
    obtain ⟨hx, hrest⟩ := h
    cases x with
    | none => exact absurd rfl hx
    | some b => exact congrArg (some b :: ·) (ih hrest)

theorem service_complete_iff (v : Service) : v.complete = true ↔ none ∉ v.slots := by
  rw [Service.complete, List.all_eq_true]
  refine ⟨fun h hnone => Bool.false_ne_true (h none hnone), fun h x hx => ?_⟩
  rw [Option.isSome_iff_ne_none]
  rintro rfl
  exact h hx

section
variable {s : State} {c : Chan} {r : Request} {more : List Request} {v : Service}

/-! ### The queue is served on while a request is in service -/

theorem serveQueue_serving (fuel : Nat) (hx : s.seqState c = .opened ∨ s.seqState c = .draining)
    (hq : (s.chan c).port.queue = r :: more) (hv : (s.chan c).port.service = some v) :
    State.serveQueue (fuel + 1) s c =
      if none ∈ v.slots then s
      else if r.isWrite then State.serveQueue fuel ((leaves s c).carryWaitingReport c) c else s.formResponse c r := by
  have hhead : s.serviceHead c r = s := by
    rw [State.serviceHead, hv]
    exact if_neg Bool.false_ne_true
  rw [State.serveQueue, if_pos ((serves_iff _).mpr hx), hq]
  dsimp only
  rw [hhead, Port.serviceComplete, hv, Option.map_some, Option.getD_some, requestLeaves_eq]
  by_cases h : none ∈ v.slots
  · rw [if_pos h, if_neg (fun hc => (service_complete_iff v).mp hc h)]
  · rw [if_neg h, if_pos ((service_complete_iff v).mpr h)]

theorem formResponse_serving (hv : (s.chan c).port.service = some v) (hformed : v.formed = false) :
    s.formResponse c r = s.updPort c fun q =>
      { q with service := some { v with formed := true }, rejected := false, range := false,
               outbound := q.outbound ++ [q.response (s.seqState c) r v] } := by
  unfold State.formResponse State.updPort
  refine updChan_congr s c ?_
  simp only [hv, hformed, Bool.false_eq_true, if_false, Port.sendResponse]

/-- The head request leaves: the report block that waits is translated, and the queue is served on. -/
theorem serves_leaves {fuel : Nat} (hx : s.seqState c = .opened ∨ s.seqState c = .draining)
    (hfuel : (s.chan c).port.queue.tail.length < fuel) :
    ReportFirst (leaves s c) ((leaves s c).carryWaitingReport c) c ∧
      Serves ((leaves s c).carryWaitingReport c)
        (State.serveQueue fuel ((leaves s c).carryWaitingReport c) c) c := by
  obtain ⟨hport, hseq⟩ := carryWaitingReport_record (leaves s c) c c
  refine ⟨carryWaitingReport_first _ c, serves_serveQueue fuel _ ?_ ?_ ?_⟩
  · rw [hport, leaves_chan]
    exact hfuel
  · rw [hport, leaves_chan]
  · rw [hseq, seqState_leaves]
    exact hx

/-- The last request of an OPEN channel leaves, and no report block waits. -/
theorem serveQueue_leaves_last (fuel : Nat) (hx : s.seqState c = .opened) (hq : (s.chan c).port.queue.tail = [])
    (hwait : s.NoneWaits c) :
    State.serveQueue (fuel + 1) ((leaves s c).carryWaitingReport c) c = leaves s c := by
  have hx' : (leaves s c).seqState c = .opened := (seqState_leaves s c c).trans hx
  rw [carryWaitingReport_of_noneWaits (s := leaves s c) hwait,
    serveQueue_nil fuel (.inl hx') (by rw [leaves_chan]; exact hq), if_neg (by rw [hx']; decide)]

end

/-- The port once its block at memory has completed. -/
def Port.blockCompletes (begun : Bool) (v : Service) (slots : List (Option Block)) (q : Port) : Port :=
  { q with headBegun := q.headBegun || (begun && !q.outbound.isEmpty), service := some { v with slots := slots } }

/-- The channel once its block at memory has completed. -/
def Channel.blockCompletes (op : DsOp) (rest : List DsOp) (begun : Bool) (v : Service) (slots : List (Option Block)) (ch : Channel) :
    Channel :=
  { ch.completed op rest with port := ch.port.blockCompletes begun v slots }

section
variable {s : State} {p : Chan} {data : Block} {begun : Bool} {op : DsOp} {rest : List DsOp} {v : Service}
  {filled left : List (Option Block)}

theorem portBlockComplete_eq (hops : (s.chan p).ds.ops = op :: rest) (ho : op.owner = .port)
    (hv : (s.chan p).port.service = some v) (hslots : v.slots = filled ++ none :: left) (hfilled : none ∉ filled) :
    portBlockComplete p data begun s =
      (s.updChan p (Channel.blockCompletes op rest begun v (filled ++ some (op.write.getD data) :: left))).pump p := by
  unfold portBlockComplete
  rw [hops]
  dsimp only
  rw [if_pos ho, completeHead_eq hops, State.updPort, updChan_updChan]
  refine congrArg (fun x : State => x.pump p) (updChan_congr s p ?_)
  simp only [Channel.blockCompletes, Port.blockCompletes, Port.noteBegun, Channel.completed, hv, Option.map_some, hslots,
    fillSlot_append hfilled]

end

/-- Settles O42. -/
theorem portBlockCompletes : Obligations.PortBlockCompletes := by
  intro s p data begun op rest r more v filled left ch q begun' hx hops ho hq hv hformed hslots hfilled slots ds'
  obtain ⟨s', hs'⟩ : ∃ s', s' = s.updChan p (Channel.blockCompletes op rest begun v slots) := ⟨_, rfl⟩
  have hchan : s'.chan p = (s.chan p).blockCompletes op rest begun v slots := by rw [hs', chan_updChan_same]
  have hx' : s'.seqState p = .opened ∨ s'.seqState p = .draining := by rw [State.seqState, hchan]; exact hx
  have hq' : (s'.chan p).port.queue = r :: more := by rw [hchan]; exact hq
  have hv' : (s'.chan p).port.service = some { v with slots := slots } := by rw [hchan]; rfl
  have hstep : portBlockComplete p data begun s = State.serveQueue ((more.length + 1) + 1) s' p := by
    rw [portBlockComplete_eq hops ho hv hslots hfilled, State.pump, ← hs', hq', List.length_cons]
  rw [serveQueue_serving _ hx' hq' hv'] at hstep
  have hopen : none ∈ slots ↔ none ∈ left := by
    simp [slots, hfilled]
  have hsame : s' = s.updChan p fun ch => { ch with
      ds := ds', port := { ch.port with headBegun := begun', service := some { v with slots := slots } } } := by
    rw [hs']
    exact updChan_congr s p rfl
  refine ⟨_, rfl, fun hnone => ?_, fun hnone hread => ?_, fun hnone hw => ?_, fun hnone hw hmore hxo hwait => ?_⟩
  · rw [hstep, if_pos (hopen.mpr hnone), hsame]
    exact ⟨onlyChannel_updChan s p _, chan_updChan_same s p _⟩
  · rw [hstep, if_neg (mt hopen.mp hnone), hread, if_neg Bool.false_ne_true,
      formResponse_serving hv' (show ({ v with slots := slots } : Service).formed = false from hformed), hsame, State.updPort,
      updChan_updChan]
    refine ⟨onlyChannel_updChan s p _, (chan_updChan_same s p _).trans ?_⟩
    have hstate : (s.updChan p fun ch => { ch with
        ds := ds', port := { ch.port with headBegun := begun', service := some { v with slots := slots } } }).seqState p =
        s.seqState p := by
      rw [← hsame, State.seqState, hchan]
      rfl
    rw [hstate]
    simp only [Port.response, phaseOf_eq hx]
    rfl
  · rw [hstep, if_neg (mt hopen.mp hnone), hw, if_pos rfl, ← hsame]
    exact ⟨_, serves_leaves hx' (by rw [hq']; exact Nat.lt_succ_self _)⟩
  · subst hmore
    have hxo' : s'.seqState p = .opened := by rw [State.seqState, hchan]; exact hxo
    have hwait' : s'.NoneWaits p := by rw [hs']; exact hwait
    rw [hstep, if_neg (mt hopen.mp hnone), hw, if_pos rfl, serveQueue_leaves_last _ hxo' (by rw [hq']; rfl) hwait', leaves,
      hxo', hsame, State.updPort, updChan_updChan]
    refine ⟨onlyChannel_updChan s p _, (chan_updChan_same s p _).trans ?_⟩
    simp only [if_true]
    rw [show (s.chan p).port.queue.tail = [] from congrArg List.tail hq]

end Sys2Proof.Machine
end

section
/-! A response is sent: the read leaves, the queue is served on, CLOSING answers the next read, or the retest begins (O43,
O44). -/

namespace Sys2Proof.Machine

/-! ### CLOSING answers the first read of the queue (R104, R146) -/

/-- The channel once CLOSING has answered the first read left in its queue, or has emptied it. -/
def Channel.answersNext (ch : Channel) : Channel :=
  match ch.port.queue.dropWhile Request.isWrite with
  | [] => { ch with seq := { ch.seq with state := .failed }, port := { ch.port with queue := [], service := none } }
  | r :: rest =>
    { ch with port := { ch.port with
        queue := r :: rest, service := some Service.answered, rejected := false, range := false,
        outbound := ch.port.outbound ++ [closingResponse ch.port r] } }

section
variable {s : State} {c : Chan}

theorem answerClosing_eq (fuel : Nat) : ∀ s : State, (s.chan c).port.queue.length < fuel → (s.chan c).port.service = none →
    State.answerClosing fuel s c = s.updChan c Channel.answersNext := by
  induction fuel with
  | zero => exact fun s h => absurd h (Nat.not_lt_zero _)
  | succ fuel ih =>
    intro s hfuel hv
    rw [State.answerClosing]
    cases hq : (s.chan c).port.queue with
    | nil =>
      show s.updChan c Channel.emptied = _
      refine updChan_congr s c ?_
      simp only [Channel.answersNext, hq, List.dropWhile_nil, Channel.emptied]
      rw [← hv, ← hq]
    | cons r rest =>
      dsimp only
      cases hw : r.isWrite with
      | true =>
        rw [hq, List.length_cons] at hfuel
        rw [if_pos rfl, ih _ (by rw [chan_updPort_same]; exact Nat.lt_of_succ_lt_succ hfuel) (by rw [chan_updPort_same]),
          State.updPort, updChan_updChan]
        refine updChan_congr s c ?_
        simp only [Channel.answersNext, hq, List.dropWhile_cons, hw, if_true]
        split
        · rfl
        · rfl
      | false =>
        have hunformed : (s.chan c).port.responseFormed = false := by rw [Port.responseFormed, hv]; rfl
        rw [if_neg Bool.false_ne_true, hunformed, if_neg Bool.false_ne_true]
        refine updChan_congr s c ?_
        simp only [Channel.answersNext, hq, List.dropWhile_cons, hw, Bool.false_eq_true, if_false]
        rw [← hq]
        rfl

theorem closeQueue_eq (hv : (s.chan c).port.service = none) : s.closeQueue c = s.updChan c Channel.answersNext :=
  answerClosing_eq _ s (Nat.lt_succ_self _) hv

/-- What the answer leaves of a CLOSING channel. -/
theorem answersNext_cases (ch : Channel) :
    (ch.port.queue.dropWhile Request.isWrite = [] ∧
      ch.answersNext = { ch with seq := { ch.seq with state := .failed },
                                 port := { ch.port with queue := [], service := none } }) ∨
    ∃ r rest, ch.port.queue.dropWhile Request.isWrite = r :: rest ∧
      ch.answersNext = { ch with port := { ch.port with
        queue := r :: rest, service := some Service.answered, rejected := false, range := false,
        outbound := ch.port.outbound ++ [closingResponse ch.port r] } } := by
  unfold Channel.answersNext
  cases ch.port.queue.dropWhile Request.isWrite with
  | nil => exact .inl ⟨rfl, rfl⟩
  | cons r rest => exact .inr ⟨r, rest, rfl, rfl⟩

/-! ### A message has been sent (R136) -/

theorem messageSent_other {m : Message} {rest : List Message} (hout : (s.chan c).port.outbound = m :: rest)
    (h : m.isResponse = false) :
    messageSent c s = s.updPort c fun q => { q with outbound := rest, headBegun := false } := by
  unfold messageSent
  rw [hout]
  dsimp only
  rw [h, Bool.false_and, if_neg Bool.false_ne_true]

theorem messageSent_response {m : Message} {rest : List Message} (hout : (s.chan c).port.outbound = m :: rest)
    (h : m.isResponse = true) (hformed : (s.chan c).port.responseFormed = true) :
    messageSent c s = (s.updPort c fun q => { q with outbound := rest, headBegun := false }).readLeaves c := by
  unfold messageSent
  rw [hout]
  dsimp only
  rw [h, hformed, Bool.true_and, if_pos rfl]

theorem readLeaves_served (h : s.seqState c ≠ .closing) :
    s.readLeaves c = State.serveQueue ((((leaves s c).carryWaitingReport c).chan c).port.queue.length + 1)
      ((leaves s c).carryWaitingReport c) c := by
  rw [State.readLeaves, if_neg h, requestLeaves_eq]
  rfl

theorem carryWaitingReport_queue (s : State) (c : Chan) :
    (((leaves s c).carryWaitingReport c).chan c).port.queue = (s.chan c).port.queue.tail := by
  rw [(carryWaitingReport_record (leaves s c) c c).1, leaves_chan]

theorem readLeaves_closing (h : s.seqState c = .closing) :
    s.readLeaves c = (s.updChan c fun ch =>
      ({ ch with port := { ch.port with queue := ch.port.queue.tail, service := none } } : Channel).answersNext).settle := by
  rw [State.readLeaves, if_pos h, closeQueue_eq (by rw [chan_updPort_same]), State.updPort, updChan_updChan]

end

/-- Settles O43. -/
theorem messageSentLeaves : Obligations.MessageSentLeaves := by
  refine ⟨fun m => ?_, fun q => ?_, fun s p m rest hout => ?_⟩
  · cases m <;> simp [Message.isResponse]
  · unfold Port.responseFormed
    cases q.service <;> simp
  · intro q
    refine ⟨fun h => exists_onlyChannel rfl (messageSent_other hout h) rfl, fun r more hm hformed hq => ?_⟩
    obtain ⟨s', hs'⟩ : ∃ s', s' = s.updPort p fun q => { q with outbound := rest, headBegun := false } := ⟨_, rfl⟩
    have hchan : s'.chan p = { s.chan p with port := { q with outbound := rest, headBegun := false } } := by
      rw [hs']
      exact chan_updChan_same s p _
    have hstate : s'.seqState p = s.seqState p := by rw [State.seqState, hchan]; rfl
    have htail : (s'.chan p).port.queue.tail = more := by
      rw [hchan]
      exact congrArg List.tail hq
    have hstep : messageSent p s = s'.readLeaves p := (messageSent_response hout hm hformed).trans (by rw [hs'])
    refine ⟨fun hx => ?_, fun hx hmore hwait => ?_, ?_⟩
    · have hne : s'.seqState p ≠ .closing := by
        rw [hstate]
        obtain h | h := hx
        · rw [h]; decide
        · rw [h]; decide
      rw [readLeaves_served hne] at hstep
      rw [← hs']
      refine ⟨_, congrArg Host.Outcome.next hstep, _, serves_leaves (by rw [hstate]; exact hx) ?_⟩
      exact Nat.lt_succ_of_le (congrArg List.length (carryWaitingReport_queue s' p)).ge
    · rw [readLeaves_served (by rw [hstate, hx]; decide), serveQueue_leaves_last _ (hstate.trans hx) (htail.trans hmore)
        (by rw [hs']; exact hwait)] at hstep
      have hthen : messageSent p s = s.updPort p fun q =>
          { q with outbound := creditReturned false rest, headBegun := false, queue := q.queue.tail, service := none,
                   credit := q.credit + 1 } := by
        rw [hstep, leaves, hstate, hx, hs', updPort_updPort]
        rfl
      refine exists_onlyChannel rfl hthen ?_
      have : (s.chan p).port.queue.tail = [] := (congrArg List.tail hq).trans hmore
      simp only [this]
      rfl
    · intro hx left
      obtain ⟨u, hu⟩ : ∃ u, u = s'.updChan p fun ch =>
          ({ ch with port := { ch.port with queue := ch.port.queue.tail, service := none } } : Channel).answersNext := ⟨_, rfl⟩
      rw [readLeaves_closing (hstate.trans hx), ← hu] at hstep
      have huchan : u.chan p = ({ s.chan p with port := { q with
          outbound := rest, headBegun := false, queue := more, service := none } } : Channel).answersNext := by
        rw [hu, chan_updChan_same, hchan, ← htail, hchan]
      have hshift : Shifts p s u := by
        rw [hu, hs']
        exact (shifts_updChan p s _).trans (shifts_updChan p _ _)
      have hcases := answersNext_cases ({ s.chan p with port := { q with
          outbound := rest, headBegun := false, queue := more, service := none } } : Channel)
      rw [← huchan] at hcases
      have hleft : u.seqState p = if left = [] then .failed else .closing := by
        obtain ⟨hnil, heq⟩ | ⟨r', rest', hcons, heq⟩ := hcases
        · rw [State.seqState, heq, if_pos (show left = [] from hnil)]
        · rw [State.seqState, heq, if_neg (show ¬left = [] from fun h => List.cons_ne_nil r' rest' (hcons.symm.trans h))]
          exact hx
      have hnot : (u.seqState p).carriesReport = false := by
        rw [hleft]
        split
        · rfl
        · rfl
      have hfinal := settle_chan_left hnot
      refine ⟨_, congrArg Host.Outcome.next hstep, hshift.around ?_, ?_, ?_, ?_, ?_, ?_⟩
      · rw [hu, hs']; rfl
      · rw [settle_fault, hu, hs']; rfl
      · rw [hfinal]
        show (u.chan p).seq = _
        obtain ⟨hnil, heq⟩ | ⟨r', rest', hcons, heq⟩ := hcases
        · rw [heq, if_pos (show left = [] from hnil)]
        · rw [heq, if_neg (show ¬left = [] from fun h => List.cons_ne_nil r' rest' (hcons.symm.trans h)), ← hx]
          rfl
      · rw [hfinal]
        show KeepsRepairs (s.chan p) (u.chan p)
        obtain ⟨-, heq⟩ | ⟨r', rest', -, heq⟩ := hcases
        · rw [heq]
          exact ⟨rfl, rfl, rfl⟩
        · rw [heq]
          exact ⟨rfl, rfl, rfl⟩
      · intro hnil
        rw [hfinal]
        show (u.chan p).port = _
        obtain ⟨-, heq⟩ | ⟨r', rest', hcons, -⟩ := hcases
        · rw [heq]
        · exact absurd (hcons.symm.trans hnil) (List.cons_ne_nil r' rest')
      · intro next hnext
        rw [hfinal]
        show (u.chan p).port = _ ∧ _
        obtain ⟨hnil, -⟩ | ⟨r', rest', hcons, heq⟩ := hcases
        · rw [show left = [] from hnil] at hnext
          cases hnext
        · obtain rfl : r' = next := by
            rw [show left = r' :: rest' from hcons] at hnext
            exact Option.some.inj hnext
          rw [heq, show left = r' :: rest' from hcons]
          exact ⟨rfl, rfl⟩

theorem leaves_updChan {s : State} {c : Chan} {f : Channel → Channel} (hf : (f (s.chan c)).seq = (s.chan c).seq) :
    leaves (s.updChan c f) c = s.updChan c fun ch => { f ch with port := { (f ch).port with
      queue := (f ch).port.queue.tail, service := none,
      credit := if s.seqState c = .opened then (f ch).port.credit + 1 else (f ch).port.credit,
      outbound := if s.seqState c = .opened then creditReturned (f ch).port.headBegun (f ch).port.outbound
                  else (f ch).port.outbound } } := by
  have hstate : (s.updChan c f).seqState c = s.seqState c := by rw [State.seqState, chan_updChan_same, hf]; rfl
  rw [leaves, State.updPort, updChan_updChan, hstate]

/-- Settles O44: the queue is empty once its last request has left, and the drain ends in the same step. -/
theorem retestBegins : Obligations.RetestBegins := by
  intro s c r hx hq
  have hends (s' : State) (hx' : s'.seqState c = .draining) (htail : (s'.chan c).port.queue.tail = []) (fuel : Nat) :
      ReportFirst (leaves s' c) ((leaves s' c).carryWaitingReport c) c ∧
        RetestBegun ((leaves s' c).carryWaitingReport c)
          (State.serveQueue (fuel + 1) ((leaves s' c).carryWaitingReport c) c) c ∧
        ((State.serveQueue (fuel + 1) ((leaves s' c).carryWaitingReport c) c).chan c).port.outbound =
          (s'.chan c).port.outbound := by
    obtain ⟨hport, hseq⟩ := carryWaitingReport_record (leaves s' c) c c
    have hdrain : ((leaves s' c).carryWaitingReport c).seqState c = .draining := by rw [hseq, seqState_leaves, hx']
    have hnil : (((leaves s' c).carryWaitingReport c).chan c).port.queue = [] := (carryWaitingReport_queue s' c).trans htail
    rw [serveQueue_nil fuel (.inr hdrain) hnil, if_pos hdrain]
    have hbegun := beginRetest_begun hnil
    refine ⟨carryWaitingReport_first _ c, hbegun, ?_⟩
    rw [hbegun.1]
    show (((leaves s' c).carryWaitingReport c).chan c).port.outbound = _
    rw [hport, leaves_chan]
    exact if_neg (by rw [hx']; decide)
  have htail : (s.chan c).port.queue.tail = [] := congrArg List.tail hq
  refine ⟨fun m rest hout hm hformed => ?_, fun data stored begun op ops v hw hops ho hwrite hv hslots => ?_⟩
  · obtain ⟨s', hs'⟩ : ∃ s', s' = s.updPort c fun q => { q with outbound := rest, headBegun := false } := ⟨_, rfl⟩
    have hx' : s'.seqState c = .draining := by rw [hs', seqState_updPort']; exact hx
    have hstep : messageSent c s = s'.readLeaves c := (messageSent_response hout hm hformed).trans (by rw [hs'])
    rw [readLeaves_served (by rw [hx']; decide)] at hstep
    obtain ⟨hfirst, hbegun, houtbound⟩ := hends s' hx' (by rw [hs', chan_updPort_same]; exact htail)
      (((leaves s' c).carryWaitingReport c).chan c).port.queue.length
    rw [← hs']
    refine ⟨_, congrArg Host.Outcome.next hstep, houtbound.trans ?_, _, hfirst, hbegun⟩
    rw [hs', chan_updPort_same]
  · obtain ⟨s', hs'⟩ : ∃ s', s' = s.updChan c (Channel.blockCompletes op ops begun v ([] ++ some (op.write.getD data) :: [])) :=
      ⟨_, rfl⟩
    have hchan : s'.chan c = (s.chan c).blockCompletes op ops begun v ([] ++ some (op.write.getD data) :: []) := by
      rw [hs', chan_updChan_same]
    have hx' : s'.seqState c = .draining := by rw [State.seqState, hchan]; exact hx
    have hq' : (s'.chan c).port.queue = [r] := by rw [hchan]; exact hq
    have hstep : portBlockComplete c data begun s =
        State.serveQueue 1 ((leaves s' c).carryWaitingReport c) c := by
      rw [portBlockComplete_eq hops ho hv hslots List.not_mem_nil, State.pump, ← hs', hq']
      refine (serveQueue_serving 1 (.inr hx') hq' (v := { v with slots := [] ++ some (op.write.getD data) :: [] })
        (by rw [hchan]; rfl)).trans ?_
      rw [if_neg (by simp), hw, if_pos rfl]
    obtain ⟨hfirst, hbegun, houtbound⟩ := hends s' hx' (by rw [hq']; rfl) 0
    have hleaves : leaves s' c = leaves (s.updChan c fun ch => { ch with
        ds := { ch.ds with ops := ops, written := dramLand op stored ch.ds.written },
        port := { ch.port with headBegun := ch.port.headBegun || (begun && !ch.port.outbound.isEmpty) } }) c := by
      rw [hs', leaves_updChan rfl, leaves_updChan rfl]
      refine updChan_congr s c ?_
      simp only [Channel.blockCompletes, Port.blockCompletes, Channel.completed, landAll, List.foldl_cons, List.foldl_nil, hwrite]
    refine ⟨_, congrArg Host.Outcome.next hstep, houtbound.trans (by rw [hchan]; rfl), ?_⟩
    rw [← hleaves]
    exact ⟨_, hfirst, hbegun⟩

end Sys2Proof.Machine
end

section
/-! The start of a report write (R148, R152 to R154): O47. -/

namespace Sys2Proof.Machine

section
variable {s : State} {c : Chan}

theorem reportable_iff (x : SeqState) : x.reportable = true ↔ x = .done ∨ x = .opened := by
  simp [SeqState.reportable]

/-- The first channel of the list with a property is the lowest one. -/
theorem find_allChans_iff (p : Chan → Bool) : allChans.find? p = some c ↔ p c = true ∧ ∀ d < c, p d = false := by
  have hget (i : Nat) (h : i < allChans.length) : allChans[i] = ⟨i, h⟩ := by
    have hrange : allChans = List.finRange 4 := by decide
    simp only [hrange, List.getElem_finRange]
    rfl
  rw [List.find?_eq_some_iff_getElem]
  refine and_congr_right fun _ => ⟨fun ⟨i, hi, hc, hlow⟩ d hd => ?_, fun hlow => ⟨c.val, c.isLt, hget _ c.isLt, fun j hj => ?_⟩⟩
  · rw [hget i hi] at hc
    subst hc
    have := hlow d.val hd
    rw [hget d.val d.isLt] at this
    simpa using this
  · rw [hget j (Nat.lt_trans hj c.isLt), hlow ⟨j, Nat.lt_trans hj c.isLt⟩ hj]
    rfl

/-- Where a write goes (R153). -/
theorem placeChannel_eq_some_iff : s.placeChannel = some c ↔ Placed s c := by
  unfold State.placeChannel Placed
  simp only [← reportable_iff]
  by_cases h : (s.seqState s.loader.kept.reportChannel).reportable = true
  · rw [if_pos h]
    constructor
    · intro hc
      obtain rfl := Option.some.inj hc
      exact ⟨h, .inl rfl⟩
    · rintro ⟨-, rfl | ⟨hnot, -⟩⟩
      · rfl
      · exact absurd h hnot
  · rw [if_neg h, find_allChans_iff]
    simp only [Bool.not_eq_true] at h ⊢
    constructor
    · rintro ⟨hc, hlow⟩
      exact ⟨hc, .inr ⟨h, hlow⟩⟩
    · rintro ⟨hc, rfl | ⟨-, hlow⟩⟩
      · rw [hc] at h
        cases h
      · exact ⟨hc, hlow⟩

theorem placeChannel_eq_none_iff : s.placeChannel = none ↔ ∀ d, ¬Placed s d := by
  rw [Option.eq_none_iff_forall_ne_some]
  simp only [ne_eq, placeChannel_eq_some_iff]

/-- A start spends a pending publish. -/
theorem startWrite_updWriter (b : Bool) : (s.updWriter fun x => { x with pendingPublish := b }).startWrite = s.startWrite := rfl

theorem startWrite_of_none (h : s.placeChannel = none) :
    s.startWrite = { s with writer := { s.writer with pendingPublish := false } } := by
  rw [State.startWrite, h]
  rfl

theorem startWrite_started (h : Placed s c) : WriteStarted s s.startWrite c := by
  have hplace := placeChannel_eq_some_iff.mpr h
  have hstart : s.startWrite = (s.updWriter fun x => { x with pendingPublish := false }).handReportBlock
      { chan := c, base := s.placeBase c, blocks := s.reportBlocks, index := 0, blockAt := .waiting,
        startSet := allChans.filter fun d => s.seqState d == .done } := by
    rw [State.startWrite, hplace]
  refine ⟨{ chan := c, base := s.placeBase c, blocks := s.reportBlocks, index := 0, blockAt := .waiting,
            startSet := allChans.filter fun d => s.seqState d == .done }, rfl, rfl, rfl, rfl, rfl, fun d => ?_, fun hq => ?_, fun hq => ?_⟩
  · have all : ∀ d : Chan, d ∈ allChans := by decide
    exact (List.mem_filter.trans ⟨fun h => beq_iff_eq.mp h.2, fun h => ⟨all d, beq_iff_eq.mpr h⟩⟩)
  · rw [hstart, State.handReportBlock, if_neg]
    · rfl
    · exact fun h => hq (List.isEmpty_iff.mp h)
  · rw [hstart, State.handReportBlock, if_pos]
    · exact carryReportBlock_carried _ _
    · exact List.isEmpty_iff.mpr hq

/-- An IDLE writer starts when a publish is pending or the automatic start is due (R152). -/
theorem maybeStart_of_due (hp : strapPublish s.strap = true) (hw : s.writer.write = none)
    (hdue : s.writer.pendingPublish = true ∨ s.autoDue = true) : s.maybeStart = s.startWrite := by
  unfold State.maybeStart
  rw [if_pos]
  rw [hp, hw, Bool.or_eq_true_iff.mpr hdue]
  rfl

theorem maybeStart_of_not_due
    (h : strapPublish s.strap = false ∨ s.writer.pendingPublish = false ∧ s.autoDue = false) : s.maybeStart = s := by
  unfold State.maybeStart
  rw [if_neg]
  obtain h | ⟨h1, h2⟩ := h
  · rw [h]
    exact Bool.false_ne_true
  · rw [h1, h2, Bool.or_false, Bool.and_false]
    exact Bool.false_ne_true

theorem publish_idle (hp : strapPublish s.strap = true) (hw : s.writer.write = none) : s.publish = s.startWrite := by
  unfold State.publish
  rw [if_pos hp]
  exact maybeStart_of_due (s := s.updWriter fun x => { x with pendingPublish := true }) hp hw (.inl rfl)

end

/-- Settles O47. -/
theorem publishStartsWrite : Obligations.PublishStartsWrite := by
  refine ⟨fun s => ?_, fun s c hp hw => ⟨fun hplaced => ?_, fun hnone => ?_⟩, fun s hw => ?_⟩
  · intro settled
    have hiff : s.allSettled = true ↔ settled := allSettled_iff s
    refine ⟨fun h => ?_, fun h => ?_⟩
    · rw [raiseReady_eq, hiff.mpr h, Bool.or_true, Bool.or_true]
    · rw [raiseReady_eq, Bool.eq_false_iff.mpr (mt hiff.mp h), Bool.or_false, Bool.or_false]
  · rw [publish_idle hp hw]
    exact startWrite_started hplaced
  · rw [publish_idle hp hw, startWrite_of_none (placeChannel_eq_none_iff.mpr hnone)]
  · intro due
    have hdue : s.autoDue = true ↔ due := autoDue_iff s
    rw [settle_of_idle hw]
    refine ⟨fun hp h c hplaced => ?_, fun hp hpending hnone => ?_, fun h => ?_⟩
    · refine ⟨s.startWrite, startWrite_started hplaced, ?_⟩
      rw [maybeStart_of_due hp hw (h.symm.imp_right hdue.mpr)]
    · rw [maybeStart_of_due hp hw (.inl hpending), startWrite_of_none (placeChannel_eq_none_iff.mpr hnone)]
    · rw [maybeStart_of_not_due]
      exact h.imp_right fun h => ⟨h.2, Bool.eq_false_iff.mpr (mt hdue.mp h.1)⟩

end Sys2Proof.Machine
end

section
/-! The escape of a fifth write (R107, R147, R148, R152, R158): O46. -/

namespace Sys2Proof.Machine

/-! ### Serving one port leaves the others -/

theorem serveQueue_others {c d : Chan} (hd : d ≠ c) (fuel : Nat) : ∀ s : State,
    KeepsRecord (s.chan d) ((State.serveQueue fuel s c).chan d) := by
  induction fuel with
  | zero => exact fun s => .rfl' _
  | succ fuel ih =>
    intro s
    have hcarry (x : State) : KeepsRecord (x.chan d) ((x.carryWaitingReport c).chan d) := by
      unfold State.carryWaitingReport
      split
      · split
        · exact (bystander_carryReportBlock _ _).2.2.2 d
        · exact .rfl' _
      · exact .rfl' _
    have hleaves (x : State) : (leaves x c).chan d = x.chan d := chan_updPort_ne x _ hd
    rw [State.serveQueue]
    split
    · split
      · split
        · rw [beginRetest_eq]
          have := (bystander_settle (({ s with shadow := s.shadow.free c } : State).updChan c
            (Channel.retested s.settledBudget))).2.2.2 d
          rwa [chan_updChan_ne ({ s with shadow := s.shadow.free c } : State) _ hd] at this
        · exact .rfl' _
      next r rest hq =>
        have hhead : (s.serviceHead c r).chan d = s.chan d := by
          unfold State.serviceHead
          split
          · exact (beginService_frame s c r).2 d hd
          · rfl
        dsimp only
        rw [← hhead]
        split
        · split
          · rw [requestLeaves_eq]
            refine KeepsRecord.trans ?_ (ih _)
            have := hcarry (leaves (s.serviceHead c r) c)
            rwa [hleaves] at this
          · rw [State.formResponse]
            rw [chan_updPort_ne _ _ hd]
            exact .rfl' _
        · exact .rfl' _
    · exact .rfl' _

/-! ### A queue that has been served stands -/

theorem serveQueue_of_not_serves {s : State} {c : Chan} (h : (s.seqState c).serves = false) (fuel : Nat) :
    State.serveQueue fuel s c = s := by
  cases fuel with
  | zero => rfl
  | succ fuel => rw [State.serveQueue, if_neg (by rw [h]; exact Bool.false_ne_true)]

theorem ServiceBegun.headWaits {s t : State} {p : Chan} {r : Request} {rest : List Request} (h : ServiceBegun s t p r)
    (hq : (s.chan p).port.queue = r :: rest) (hr : r.isWrite = false ∨ requestOps (s.chan p) r ≠ []) :
    (t.chan p).port.headWaits := by
  have hqueue := h.queue.trans hq
  obtain ⟨-, -, hchan⟩ := h
  obtain ⟨m, hm⟩ : ∃ m, m = (if (addresses r).any (isShadowed (s.chan p)) then s.storeReport p else s).shadow.store := ⟨_, rfl⟩
  have hops := requestOps_ne_nil_iff (s.chan p) r m
  rw [← hm] at hchan
  by_cases hcond : r.isWrite = true ∨ none ∈ requestSlots m (s.chan p) r
  · rw [if_pos hcond] at hchan
    refine ⟨r, rest, _, hqueue, by rw [hchan], .inl ?_⟩
    obtain hw | hnone := hcond
    · obtain hread | hsome := hr
      · rw [hw] at hread; cases hread
      · exact hops.mp hsome
    · exact hnone
  · rw [if_neg hcond] at hchan
    rw [not_or, Bool.not_eq_true] at hcond
    exact ⟨r, rest, _, hqueue, by rw [hchan], .inr ⟨rfl, hcond.1⟩⟩

theorem BlockCarried.seqState {s t : State} {w : Write} (h : BlockCarried s t w) (d : Chan) : t.seqState d = s.seqState d := by
  obtain ⟨-, hother, -, hmem, hstore, hout⟩ := h
  by_cases hd : d = w.chan
  · subst hd
    unfold State.seqState
    cases hdest : (s.chan w.chan).dest (w.base + w.index) with
    | direct bank row col =>
      rw [(hmem _ (by rw [portOp, hdest])).1]
    | spare bank row col =>
      rw [(hmem _ (by rw [portOp, hdest])).1]
    | shadow e col => rw [(hstore e col hdest).1]
    | outside => rw [(hout hdest).1]
  · rw [State.seqState, hother d hd]
    rfl

theorem ReportFirst.seqState {s t : State} {p : Chan} (h : ReportFirst s t p) (d : Chan) : t.seqState d = s.seqState d := by
  obtain ⟨hcarried, hnone⟩ := h
  by_cases hwait : s.NoneWaits p
  · rw [hnone hwait]
  · unfold State.NoneWaits at hwait
    push Not at hwait
    obtain ⟨w, hw, hc, hat⟩ := hwait
    exact (hcarried w hw hc hat).seqState d

theorem Serves.pump_eq {s t : State} {p : Chan} (h : Serves s t p) (hx : s.seqState p = .opened ∨ s.seqState p = .draining) :
    t.pump p = t := by
  induction h with
  | idle s p ho hq =>
    rw [State.pump, hq]
    exact (serveQueue_nil 0 (.inl ho) hq).trans (if_neg (by rw [ho]; decide))
  | drained s t p hd hq hbegun =>
    obtain ⟨hchan, -⟩ := hbegun
    refine serveQueue_of_not_serves ?_ _
    rw [State.seqState, hchan]
    rfl
  | waits s t p r rest hq hr hbegun =>
    exact pump_of_headWaits (by rw [hbegun.seqState]; exact hx) (hbegun.headWaits hq hr)
  | goesOn s u v t p r rest hq hw hops hbegun hfirst hserves ih =>
    refine ih ?_
    rw [hfirst.seqState, seqState_leaves, hbegun.seqState]
    exact hx

/-! ### What an escape does (R148) -/

/-- A retest escape has made the channel drain (R107). -/
def Channel.drains (ch : Channel) : Channel :=
  { ch with seq := { ch.seq with state := .draining }, port := { ch.port with detector := .idle } }

section
variable {s t : State} {p : Chan} {w : BitVec 64}

theorem retestEscape_of_opened {d : Chan} (h : s.seqState d = .opened) :
    s.retestEscape d = (s.updChan d Channel.drains).pump d := by
  rw [State.retestEscape, if_pos h, State.setSeqState, State.updSeq, State.updPort, updChan_updChan]
  rfl

theorem retestEscape_of_not_opened {d : Chan} (h : s.seqState d ≠ .opened) : s.retestEscape d = s := if_neg h

theorem seqState_drains (s : State) (d : Chan) : (s.updChan d Channel.drains).seqState d = .draining := by
  rw [State.seqState, chan_updChan_same]
  rfl

theorem pump_drains_of_headWaits {d : Chan} (h : (s.chan d).port.headWaits) :
    (s.updChan d Channel.drains).pump d = s.updChan d Channel.drains := by
  refine pump_of_headWaits (.inr (seqState_drains s d)) ?_
  rw [chan_updChan_same]
  exact h

theorem takeEscape_publish (h : escapeCode w = 1) : s.takeEscape w = s.publish := by
  simp only [State.takeEscape, h]

theorem takeEscape_retest (h : escapeCode w = 2) {d : Chan} (hd : escapeOperand w = d.val) :
    s.takeEscape w = s.retestEscape d := by
  have hlt : escapeOperand w < 4 := hd ▸ d.isLt
  have heq : (⟨escapeOperand w, hlt⟩ : Chan) = d := Fin.ext hd
  simp only [State.takeEscape, h]
  rw [dif_pos hlt, heq]

theorem takeEscape_retest_none (h : escapeCode w = 2) (hd : ∀ d : Chan, escapeOperand w ≠ d.val) : s.takeEscape w = s := by
  simp only [State.takeEscape, h]
  exact dif_neg fun hlt : escapeOperand w < 4 => hd ⟨escapeOperand w, hlt⟩ rfl

theorem takeEscape_acknowledge (h : escapeCode w = 3) : s.takeEscape w = s.acknowledgeFault := by
  simp only [State.takeEscape, h]

theorem takeEscape_other (h : escapeCode w ∉ [1, 2, 3]) : s.takeEscape w = s := by
  unfold State.takeEscape
  split
  next h1 => exact absurd (by rw [h1]; decide) h
  next h2 => exact absurd (by rw [h2]; decide) h
  next h3 => exact absurd (by rw [h3]; decide) h
  next => rfl

/-- The escape names the port's own channel for a retest. -/
def OwnRetest (w : BitVec 64) (p : Chan) : Prop := escapeCode w = 2 ∧ escapeOperand w = p.val

theorem publish_writing (hp : strapPublish s.strap = true) (h : s.writer.write ≠ none) :
    s.publish = { s with writer := { s.writer with pendingPublish := true } } := by
  unfold State.publish State.maybeStart
  rw [if_pos hp, if_neg]
  · rfl
  · rintro hstart
    simp only [Bool.and_eq_true, Option.isNone_iff_eq_none] at hstart
    exact h hstart.1.2

/-- The escape takes its effect: its own channel drains, and any other escape does what it does at once. -/
theorem escapeEffect (hopened : s.seqState p = .opened) (hown : OwnRetest w p → t = s.updChan p Channel.drains) (hother : ¬OwnRetest w p → t = s.takeEscape w) :
    EscapeEffect s t p (escapeCode w) (escapeOperand w) := by
  refine ⟨fun h => ?_, fun h d hd hopen => ⟨fun hwaits => ?_, fun hne hq => ?_⟩, fun h hp hw c hplaced => ?_, fun h hp hw => ?_,
    fun h => ?_⟩
  · rw [hother fun ho => absurd (h.symm.trans ho.1) (by decide), takeEscape_acknowledge h]
    rfl
  · by_cases ho : d = p
    · subst ho
      exact hown ⟨h, hd⟩
    · have hwaits := hwaits.resolve_left ho
      rw [hother fun ho' => ho (Fin.ext (hd.symm.trans ho'.2)), takeEscape_retest h hd, retestEscape_of_opened hopen,
        pump_drains_of_headWaits hwaits]
      rfl
  · have hnil : ((s.updChan d Channel.drains).chan d).port.queue = [] := by rw [chan_updChan_same]; exact hq
    rw [hother fun ho => hne (Fin.ext (hd.symm.trans ho.2)), takeEscape_retest h hd, retestEscape_of_opened hopen, State.pump, hnil]
    have := serveQueue_nil 0 (.inr (seqState_drains s d)) hnil
    rw [if_pos (seqState_drains s d)] at this
    rw [List.length_nil, this]
    exact beginRetest_begun hnil
  · rw [hother fun ho => absurd (h.symm.trans ho.1) (by decide), takeEscape_publish h, publish_idle hp hw]
    exact startWrite_started hplaced
  · rw [hother fun ho => absurd (h.symm.trans ho.1) (by decide), takeEscape_publish h, publish_writing hp hw]
  · have hstands : s.takeEscape w = s := by
      obtain h | ⟨h, hp⟩ | ⟨h, hnone⟩ := h
      · exact takeEscape_other h
      · rw [takeEscape_publish h, State.publish, if_neg (by rw [hp]; exact Bool.false_ne_true)]
      · by_cases hd : ∃ d : Chan, escapeOperand w = d.val
        · obtain ⟨d, hd⟩ := hd
          rw [takeEscape_retest h hd, retestEscape_of_not_opened (hnone d hd)]
        · exact takeEscape_retest_none h fun d hd' => hd ⟨d, hd'⟩
    refine (hother fun ho => ?_).trans hstands
    obtain h | ⟨h, -⟩ | ⟨-, hnone⟩ := h
    · exact h (by rw [ho.1]; decide)
    · exact absurd (h.symm.trans ho.1) (by decide)
    · exact hnone p ho.2 hopened

/-- An escape that does not retest its own channel leaves the channel's port and state. -/
theorem takeEscape_record (hx : s.seqState p = .opened) (h : ¬OwnRetest w p) :
    ((s.takeEscape w).chan p).port = (s.chan p).port ∧ (s.takeEscape w).seqState p = .opened := by
  have hrecord : KeepsRecord (s.chan p) ((s.takeEscape w).chan p) := by
    by_cases h2 : escapeCode w = 2
    · by_cases hd : ∃ d : Chan, escapeOperand w = d.val
      · obtain ⟨d, hd⟩ := hd
        have hne : p ≠ d := fun e => h ⟨h2, e ▸ hd⟩
        rw [takeEscape_retest h2 hd]
        by_cases hopen : s.seqState d = .opened
        · rw [retestEscape_of_opened hopen, State.pump]
          have := serveQueue_others hne (((s.updChan d Channel.drains).chan d).port.queue.length + 1)
            (s.updChan d Channel.drains)
          rwa [chan_updChan_ne s _ hne] at this
        · rw [retestEscape_of_not_opened hopen]
          exact .rfl' _
      · rw [takeEscape_retest_none h2 fun d hd' => hd ⟨d, hd'⟩]
        exact .rfl' _
    · by_cases h1 : escapeCode w = 1
      · rw [takeEscape_publish h1]
        exact (bystander_publish s).2.2.2 p
      · by_cases h3 : escapeCode w = 3
        · rw [takeEscape_acknowledge h3]
          exact .rfl' _
        · rw [takeEscape_other (by simp [h1, h2, h3])]
          exact .rfl' _
  have hstate := hrecord.state_eq (show s.seqState p ≠ .done by rw [hx]; decide)
  exact ⟨(hrecord.stands hstate).port, hstate.trans hx⟩

theorem escapeCode_eq (w : BitVec 64) : escapeCode w = w.toNat % 256 := by
  rw [escapeCode, BitVec.extractLsb'_toNat, Nat.shiftRight_zero]

theorem escapeOperand_eq (w : BitVec 64) : escapeOperand w = w.toNat / 256 % 256 := by
  rw [escapeOperand, BitVec.extractLsb'_toNat, Nat.shiftRight_eq_div_pow]

/-- The fifth write has been accepted, its escape taken, and the queue served. -/
theorem requestArrival_escape {header : Vector Byte 5} {data : List Block} {begun : Bool} {r : Request}
    (hreset : s.inReset = false) (hx : s.seqState p = .opened) (hcredit : 0 < (s.chan p).port.credit)
    (hparse : parseMessage header data = some r) (hruns : strapEscapes s.strap = true) (hw : r.isWrite = true)
    (hsee : (s.chan p).port.detector.see ((s.chan p).isCandidate r) (escapeWord r) = (.idle, some (escapeWord r))) :
    requestArrival p header data begun s =
      ((s.updPort p (Port.accepted begun r .idle)).takeEscape (escapeWord r)).pump p := by
  obtain ⟨u, hu⟩ : ∃ u, u = (s.updPort p (Port.arrived begun)).accept p r := ⟨_, rfl⟩
  have hchan : u.chan p = { s.chan p with port := { (s.chan p).port.arrived begun with
      queue := (s.chan p).port.queue ++ [r] } } := by
    rw [hu, State.accept, updPort_updPort]
    exact chan_updChan_same s p _
  have hdetect : u.detect p r = (u.updPort p fun q => { q with detector := .idle }).takeEscape (escapeWord r) := by
    have hcond : (r.isWrite && strapEscapes u.strap && u.seqState p == .opened) = true := by
      have hstate : u.seqState p = .opened := by rw [State.seqState, hchan]; exact hx
      have hstrap : strapEscapes u.strap = true := by rw [hu]; exact hruns
      rw [hw, hstrap, hstate]
      rfl
    have hsee' : (u.chan p).port.detector.see ((u.chan p).isCandidate r) (escapeWord r) = (.idle, some (escapeWord r)) := by
      rw [hchan]
      exact hsee
    unfold State.detect
    rw [if_pos hcond]
    simp only [hsee']
  rw [requestArrival_eq hreset, decide_eq_true hcredit, hparse,
    judgeArrival_of_sound (by rw [seqState_updPort']; exact .inl hx), ← hu, hdetect, hu, State.accept, updPort_updPort,
    updPort_updPort]
  rfl

end

/-- Settles O46: the escape is taken first; its own channel's retest serves the write at once, and a queue once served
stands. -/
theorem escapeTaken : Obligations.EscapeTaken := by
  intro s p header data begun r hreset q w code operand hx hruns hcredit hparse hw hlen hescape hdetector hmarked s'
  have hsee : (s.chan p).port.detector.see ((s.chan p).isCandidate r) (escapeWord r) = (.idle, some (escapeWord r)) := by
    have hcandidate : (s.chan p).isCandidate r = true := by
      rw [Channel.isCandidate, hlen, hescape]
      simp
    rw [hcandidate, Detector.see, if_pos rfl, if_pos ⟨hdetector, hmarked⟩]
  have hstep := requestArrival_escape (begun := begun) hreset hx hcredit hparse hruns hw hsee
  have hs' : s.updPort p (Port.accepted begun r .idle) = s' := updChan_congr s p rfl
  have hport : (s'.chan p).port = (s.chan p).port.accepted begun r .idle := by
    rw [← hs', chan_updPort_same]
  have hx' : s'.seqState p = .opened := hx ▸ seqState_updPort' _ p
  rw [hs'] at hstep
  rw [show code = escapeCode w from (escapeCode_eq w).symm, show operand = escapeOperand w from (escapeOperand_eq w).symm]
  refine ⟨_, congrArg Host.Outcome.next hstep, fun hwaits => ?_, fun hq hv => ?_⟩
  · have hwaits' : (s'.chan p).port.headWaits := by
      obtain ⟨r0, rest, v, hq, hv, hwait⟩ := hwaits
      rw [hport]
      exact ⟨r0, rest ++ [r], v, congrArg (· ++ [r]) hq, hv, hwait⟩
    refine escapeEffect hx' (fun hown => ?_) fun hown => ?_
    · show (s'.takeEscape w).pump p = _
      rw [takeEscape_retest hown.1 hown.2, retestEscape_of_opened hx', pump_drains_of_headWaits hwaits',
        pump_drains_of_headWaits hwaits']
    · obtain ⟨hkeep, hopen⟩ := takeEscape_record hx' hown
      exact pump_of_headWaits (.inl hopen) (hkeep ▸ hwaits')
  · have hv' : (s'.chan p).port.service = none := by rw [hport]; exact hv
    by_cases hown : OwnRetest w p
    · refine ⟨s'.updChan p Channel.drains, escapeEffect hx' (fun _ => rfl) fun hnot => absurd hown hnot, ?_⟩
      have hserves : Serves (s'.updChan p Channel.drains) ((s'.updChan p Channel.drains).pump p) p :=
        serves_pump (by rw [chan_updChan_same]; exact hv') (.inr (seqState_drains s' p))
      show Serves _ ((s'.takeEscape w).pump p) p
      rw [takeEscape_retest hown.1 hown.2, retestEscape_of_opened hx', hserves.pump_eq (.inr (seqState_drains s' p))]
      exact hserves
    · obtain ⟨hkeep, hopen⟩ := takeEscape_record hx' hown
      exact ⟨s'.takeEscape w, escapeEffect hx' (fun h => absurd h hown) fun _ => rfl,
        serves_pump (by rw [hkeep]; exact hv') (.inl hopen)⟩

end Sys2Proof.Machine
end

section
/-! A channel is lost before it opens (R102, R103): O6. -/

namespace Sys2Proof.Machine

/-- A channel that a loss has taken to FAILED from a state before OPEN. -/
def Channel.lost (why : Reason) (x : SeqState) (ch : Channel) : Channel :=
  { ch with
    seq := { ch.seq with state := .failed, result := .failed, reason := why, ident := .idle },
    march := none, analyser := none, ds := ch.ds.afterLoss x }

/-- The states from IDENTIFYING to DONE. -/
def lossStates : List SeqState := [.identifying, .selecting, .queued, .testing, .analysing, .done]

section
variable {s u : State} {c : Chan} {why : Reason}

/-- The loss has been taken, and is still to be settled: `u` is the part then. -/
structure Loses (s : State) (c : Chan) (why : Reason) (u : State) : Prop where
  chan : u.chan c = (s.chan c).lost why (s.seqState c)
  frame : u = { s with chans := u.chans, arbiter := u.arbiter, board := s.board.took .failed }
  arbiter : u.arbiter = if s.seqState c = .testing then slotPassed s.arbiter c
    else { s.arbiter with waitQueue := s.arbiter.waitQueue.filter fun h => h != c }
  others : ∀ d, d ≠ c → u.chan d =
    if s.seqState c = .testing ∧ s.arbiter.waitQueue.head? = some d then (s.chan d).granted else s.chan d

/-- A channel that holds no slot fails. -/
theorem loses_of_failed (hx : s.seqState c ≠ .testing) {f : Channel → Channel}
    (hf : (f (s.chan c)).failed why = (s.chan c).lost why (s.seqState c)) :
    Loses s c why (((s.updArbiter fun a => { a with waitQueue := a.waitQueue.filter fun h => h != c }).updChan c
      fun ch => (f ch).failed why).updBoard (·.took .failed)) := by
  refine ⟨?_, rfl, (if_neg hx).symm, fun d hd => ?_⟩
  · rw [← hf]
    exact chan_updChan_same (s.updArbiter fun a => { a with waitQueue := a.waitQueue.filter fun h => h != c }) c
      fun ch => (f ch).failed why
  rw [if_neg fun h => hx h.1]
  exact chan_updChan_ne (s.updArbiter fun a => { a with waitQueue := a.waitQueue.filter fun h => h != c })
    (fun ch => (f ch).failed why) hd

/-- A channel that does not wait departs from nothing. -/
theorem departQueue_of_not_queued (ho : Ordered s) (hx : s.seqState c ≠ .queued) : s.departQueue c = s := by
  have hfilter : (s.arbiter.waitQueue.filter fun h => h != c) = s.arbiter.waitQueue := by
    refine List.filter_eq_self.mpr fun d hd => bne_iff_ne.mpr ?_
    rintro rfl
    exact hx ((ho.queue.waiting d).mp hd)
  show ({ s with arbiter := { s.arbiter with waitQueue := s.arbiter.waitQueue.filter fun h => h != c } } : State) = s
  rw [hfilter]

section
variable {ch : Channel}

theorem lost_of_idle (hm : ch.march = none) (ha : ch.analyser = none) (hi : ch.seq.ident = .idle) (x : SeqState) :
    ch.lost why x = { ch.failed why with ds := ch.ds.afterLoss x } := by
  obtain ⟨_, ⟨⟩, _, _, _, _, _, _, _⟩ := ch
  dsimp only at hm ha hi
  subst hm ha hi
  rfl

theorem unidentified_failed (hm : ch.march = none) (ha : ch.analyser = none) :
    ch.unidentified.failed why = ch.lost why .identifying := by
  obtain ⟨⟩ := ch
  dsimp only at hm ha
  subst hm ha
  rfl

theorem analysing_failed (hm : ch.march = none) (hi : ch.seq.ident = .idle) :
    ({ ch with analyser := none } : Channel).failed why = ch.lost why .analysing := by
  obtain ⟨_, ⟨⟩, _, _, _, _, _, _, _⟩ := ch
  dsimp only at hm hi
  subst hm hi
  rfl

theorem abandoned_failed (ha : ch.analyser = none) (hi : ch.seq.ident = .idle) :
    ch.abandoned.failed why = ch.lost why .testing := by
  obtain ⟨_, ⟨⟩, _, _, _, _, _, _, _⟩ := ch
  dsimp only at ha hi
  subst ha hi
  rfl

end

/-- The channel gives up its slot and fails (R97, R103, R112). -/
theorem loses_of_released (ho : Ordered s) (hx : s.seqState c = .testing) (why : Reason) :
    Loses s c why ((((s.updChan c Channel.abandoned).releaseSlot c).updChan c (Channel.failed why)).updBoard
      (·.took .failed)) := by
  have hord := ho.chans c
  have hstate : (s.chan c).seq.state = .testing := hx
  have hreleased := released_chan ho hx Channel.abandoned (Channel.failed why)
  have hframe := released_frame (s := s) (c := c) Channel.abandoned (Channel.failed why)
  refine ⟨?_, ?_, ?_, fun d hd => ?_⟩
  · refine ((hreleased c).trans (if_pos rfl)).trans ?_
    rw [hx]
    exact abandoned_failed (hord.analyser_none (by rw [hstate]; decide)) (hord.ident_idle (by rw [hstate]; decide))
  · rw [hframe]
    rfl
  · rw [if_pos hx, hframe]
    rfl
  · refine ((hreleased d).trans (if_neg hd)).trans ?_
    simp only [hx, true_and]

theorem lose_eq (ho : Ordered s) (hx : s.seqState c ∈ lossStates) (why : Reason) :
    ∃ u, s.lose c why = u.settle ∧ Loses s c why u := by
  have hord := ho.chans c
  have hfail (f : Channel → Channel) (hne : s.seqState c ≠ .testing) (hq : s.seqState c ≠ .queued)
      (hf : (f (s.chan c)).failed why = (s.chan c).lost why (s.seqState c)) :
      ∃ u, ((s.updChan c f).failChannel c why).settle = u.settle ∧ Loses s c why u := by
    refine ⟨_, ?_, loses_of_failed hne hf⟩
    rw [failChannel_eq, updChan_updChan]
    refine congrArg (fun x : State => ((x.updChan c fun ch => (f ch).failed why).updBoard (·.took .failed)).settle) ?_
    exact (departQueue_of_not_queued ho hq).symm
  have hmarch (hne : s.seqState c ≠ .testing) := hord.march_none hne
  have hanalyser (hne : s.seqState c ≠ .analysing) := hord.analyser_none hne
  have hident (hne : s.seqState c ≠ .identifying) := hord.ident_idle hne
  simp only [lossStates, List.mem_cons, List.not_mem_nil, or_false] at hx
  unfold State.lose
  obtain hx | hx | hx | hx | hx | hx := hx
  all_goals
    simp only [hx, ne_eq, reduceCtorEq, not_false_eq_true, not_true_eq_false, false_imp_iff, true_imp_iff] at hfail hmarch hanalyser hident ⊢
  · rw [stopIdentify_eq]
    exact hfail _ (unidentified_failed hmarch hanalyser)
  · have := hfail id (lost_of_idle hmarch hanalyser hident .selecting).symm
    rwa [updChan_of_eq (f := id) rfl] at this
  · have hfailed := lost_of_idle (why := why) hmarch hanalyser hident .queued
    refine ⟨_, ?_, loses_of_failed (f := id) (by rw [hx]; decide) (by rw [hx]; exact hfailed.symm)⟩
    rw [failChannel_eq]
    rfl
  · refine ⟨_, ?_, loses_of_released ho hx why⟩
    rw [abandonSweep_eq, failChannel_eq]
  · exact hfail _ (analysing_failed hmarch hident)
  · exact hfail _ (lost_of_idle hmarch hanalyser hident .done).symm

/-- A grant changes the sequencer, the sweep and the stream alone. -/
theorem granted_record (ch : Channel) :
    ch.granted.seq = { ch.seq with state := .testing, entered := ch.seq.entered ++ [ch.seq.nextBank] } ∧
      ch.granted = { ch with seq := ch.granted.seq, march := ch.granted.march, ds := ch.granted.ds } := by
  unfold Channel.granted
  split
  · exact ⟨rfl, rfl⟩
  · exact ⟨rfl, rfl⟩

/-- A loss that met a channel whose inputs or stream the same command has just changed. -/
structure LossMet (s : State) (c : Chan) (f : Channel → Channel) : Prop where
  same : f (s.chan c) = { s.chan c with supplyGood := (f (s.chan c)).supplyGood, ds := (f (s.chan c)).ds }
  law : SequencerLaw s
  state : s.seqState c ∈ lossStates

section
variable {f : Channel → Channel}

theorem LossMet.seqState (h : LossMet s c f) (d : Chan) : (s.updChan c f).seqState d = s.seqState d := by
  rw [seqState_updChan, h.same]
  split
  next hd => rw [hd]; rfl
  next => rfl

theorem LossMet.ordered (h : LossMet s c f) : Ordered (s.updChan c f) := by
  obtain ⟨hchans, hqueue⟩ := h.law.ordered
  refine ⟨fun d => ?_, fun d => ?_, fun d => ?_, hqueue.wait_nodup, hqueue.hold_nodup⟩
  · rw [chan_updChan, h.same]
    split
    · exact ⟨(hchans c).march, (hchans c).analyser, (hchans c).ident, (hchans c).supplyWait⟩
    · exact hchans d
  · rw [h.seqState]
    exact hqueue.waiting d
  · rw [h.seqState]
    exact hqueue.holding d

/-- The stream that the loss leaves, before a report write on the channel is abandoned. -/
theorem LossMet.lost (h : LossMet s c f) (hu : Loses (s.updChan c f) c why u) :
    LostBeforeOpening s u.settle c why ∧ (u.settle.chan c).supplyGood = (f (s.chan c)).supplyGood ∧
      (u.settle.chan c).ds = { (f (s.chan c)).ds.afterLoss (s.seqState c) with
        ops := if s.writer.write.map Write.chan = some c
          then ((f (s.chan c)).ds.afterLoss (s.seqState c)).ops.map DsOp.discardReport
          else ((f (s.chan c)).ds.afterLoss (s.seqState c)).ops } ∧
      (WriterLaw s → s.seqState c = .testing → HeadGranted s u.settle) := by
  obtain ⟨hchan, hframe, harbiter, hothers⟩ := hu
  rw [h.seqState, chan_updChan_same] at hchan
  rw [h.seqState] at harbiter
  have hwriter : u.writer = s.writer := by rw [hframe]; rfl
  have hx : (u.seqState c).carriesReport = false := by rw [State.seqState, hchan]; rfl
  have hfinal := settle_chan_left hx
  rw [hwriter, hchan] at hfinal
  have hothers' (d : Chan) (hd : d ≠ c) : u.chan d =
      if s.seqState c = .testing ∧ s.arbiter.waitQueue.head? = some d then (s.chan d).granted else s.chan d := by
    have := hothers d hd
    rwa [h.seqState, chan_updChan_ne s f hd] at this
  have hstays (d : Chan) (hd : d ≠ c) (hdone : s.seqState d ≠ .queued) : u.chan d = s.chan d := by
    rw [hothers' d hd, if_neg fun hg => hdone (h.law.ordered.head_queued hg.2)]
  have hdone (d : Chan) (hd : d ≠ c) : u.seqState d = .done ↔ s.seqState d = .done := by
    by_cases hq : s.seqState d = .queued
    · refine ⟨fun hx => ?_, fun hx => absurd (hq.symm.trans hx) (by decide)⟩
      rw [State.seqState, hothers' d hd] at hx
      split at hx
      · rw [(granted_record _).1] at hx
        cases hx
      · exact absurd (hq.symm.trans hx) (by decide)
    · rw [State.seqState, hstays d hd hq]
      rfl
  have hshared : KeepsShared s u := by
    rw [hframe]
    exact ⟨rfl, rfl, rfl, rfl, rfl, id⟩
  have hrecord (d : Chan) := (bystander_settle u).2.2.2 d
  have hseq : (f (s.chan c)).seq = (s.chan c).seq := by rw [h.same]
  have hgeometry : (f (s.chan c)).geometry = (s.chan c).geometry := by rw [h.same]
  have hremap : (f (s.chan c)).remap = (s.chan c).remap := by rw [h.same]
  have hlog : (f (s.chan c)).log = (s.chan c).log := by rw [h.same]
  have hport : (f (s.chan c)).port = (s.chan c).port := by rw [h.same]
  refine ⟨⟨?_, ?_, ?_, hshared.trans (bystander_settle u).1, ?_, ?_, fun d hd => ?_⟩, ?_, ?_, fun hw hx => ?_⟩
  · rw [hfinal]
    simp only [Channel.lost, hseq, hgeometry, hremap, hlog, hport]
  · rw [FailedWith, hfinal, settle_fault, hframe]
    exact ⟨rfl, rfl, rfl, Bool.or_true _⟩
  · rw [hfinal]
    exact ⟨hgeometry, hremap, hlog⟩
  · exact (settle_abandoned hx).of_done hwriter hdone fun d hd hx => hstays d hd (by rw [hx]; decide)
  · rw [settle_arbiter, harbiter]
    rfl
  · by_cases hg : s.seqState c = .testing ∧ s.arbiter.waitQueue.head? = some d
    · have huchan := (hothers' d hd).trans (if_pos hg)
      obtain ⟨hgseq, hgsame⟩ := granted_record (s.chan d)
      have hrec := hrecord d
      rw [huchan] at hrec
      have hstands := hrec.stands (hrec.state_eq (by rw [hgseq]; exact nofun))
      refine .inr ⟨hg, hstands.seq.trans hgseq, ?_⟩
      rw [hstands.same, hgsame]
      exact ⟨rfl, rfl, rfl, rfl, rfl, rfl⟩
    · have := hrecord d
      rw [hothers' d hd, if_neg hg] at this
      exact .inl this
  · rw [hfinal]
    rfl
  · rw [hfinal]
    rfl
  · intro d hhead
    have hq := h.law.ordered.head_queued hhead
    have hd : d ≠ c := by
      rintro rfl
      rw [hq] at hx
      cases hx
    have huchan := (hothers' d hd).trans (if_pos ⟨hx, hhead⟩)
    have hcarry : u.Carrying := by
      intro w hwrite
      have hcarry := (hw w (hwriter ▸ hwrite)).1
      have hnc : w.chan ≠ c := by
        rintro rfl
        rw [hx] at hcarry
        cases hcarry
      rw [State.seqState, hstays w.chan hnc fun hqueued => by rw [hqueued] at hcarry; cases hcarry]
      exact hcarry
    have hnot : (u.seqState d).reportable = false := by
      rw [State.seqState, huchan, (granted_record _).1]
      rfl
    rw [settle_chan_of_not_reportable hcarry hnot, huchan]
    refine ⟨(granted_record _).1, ?_⟩
    intro g hg m
    rw [granted_of_geometry hg]

end

end

/-- Nothing of a report is left to discard. -/
theorem map_discardReport_filter (ops : List DsOp) :
    (ops.filter fun op => !op.isReport).map DsOp.discardReport = ops.filter fun op => !op.isReport := by
  refine (List.map_congr_left fun op hop => ?_).trans (List.map_id _)
  have hnot := (List.mem_filter.mp hop).2
  unfold DsOp.isReport at hnot
  unfold DsOp.discardReport
  split
  next live ho =>
    rw [ho] at hnot
    cases hnot
  next => rfl

theorem afterLoss_of_nil {d : Downstream} (h : d.ops = []) (x : SeqState) :
    d.afterLoss x = { d with refreshWithheld := if x = .testing then false else d.refreshWithheld } := by
  obtain ⟨_⟩ := d
  dsimp only at h
  subst h
  cases x <;> rfl

/-- Settles O6: the fall is a loss at the new input; a no-response has abandoned the operations before. -/
theorem lossBeforeOpening : Obligations.LossBeforeOpening := by
  intro s c hl hx
  refine ⟨fun hgood => ?_, fun hread => ?_⟩
  · have hmet : LossMet s c fun ch => { ch with supplyGood := false } := ⟨rfl, hl, hx⟩
    obtain ⟨u, hlose, hu⟩ := lose_eq (c := c) hmet.ordered (by rw [hmet.seqState]; exact hx) .supplyLost
    obtain ⟨hlost, hsupply, hds, hhead⟩ := hmet.lost hu
    have hstep : supplyGoodFall c s = u.settle := by
      rw [supplyGoodFall, if_pos hgood]
      exact hlose
    refine ⟨_, congrArg Host.Outcome.next hstep, hlost, hsupply, fun hw => ⟨hds.trans ?_, hhead hw⟩⟩
    by_cases hwrite : s.writer.write.map Write.chan = some c
    · obtain ⟨w, hwrite', hc⟩ := Option.map_eq_some_iff.mp hwrite
      have hcarry := (hw w hwrite').1
      rw [hc] at hcarry
      have hdone : s.seqState c = .done := by
        simp only [List.mem_cons, List.not_mem_nil, or_false] at hx
        obtain hx | hx | hx | hx | hx | hx := hx
        case inr.inr.inr.inr.inr => exact hx
        all_goals
          rw [hx] at hcarry
          cases hcarry
      rw [if_pos hwrite, hdone]
      show ({ (s.chan c).ds.afterLoss .done with
        ops := ((s.chan c).ds.ops.filter fun op => !op.isReport).map DsOp.discardReport } : Downstream) = _
      rw [map_discardReport_filter]
      rfl
    · rw [if_neg hwrite]
  · have hmet : LossMet s c Channel.dropped := ⟨rfl, hl, hx⟩
    obtain ⟨u, hlose, hu⟩ := lose_eq (c := c) hmet.ordered (by rw [hmet.seqState]; exact hx) .noResponse
    obtain ⟨hlost, hsupply, hds, hhead⟩ := hmet.lost hu
    refine ⟨_, congrArg Host.Outcome.next ((noResponse_eq hread).trans hlose), hlost, hds.trans ?_, hhead, hsupply⟩
    rw [afterLoss_of_nil (d := ((s.chan c).dropped).ds) rfl]
    exact congrArg (fun l => ({ ((s.chan c).dropped).ds with
      ops := l, refreshWithheld := if s.seqState c = .testing then false else ((s.chan c).dropped).ds.refreshWithheld } :
        Downstream)) (ite_self [])

end Sys2Proof.Machine
end

section
/-! A channel is lost while it is OPEN or DRAINING (R104, R146): O7. -/

namespace Sys2Proof.Machine

section
variable {s : State} {c : Chan} {why : Reason}

/-- The channel as it enters CLOSING with its operations abandoned, before its queue is answered. -/
def Channel.closes (why : Reason) (ch : Channel) : Channel := (ch.closing why).dropped

/-- The channel once a loss has taken it out of OPEN or DRAINING. -/
def Channel.lostOpen (why : Reason) (ch : Channel) : Channel :=
  if ch.port.responseFormed then ch.closes why else (ch.closes why).answersNext

theorem dropOps_updBoard (f : Board → Board) (s : State) (c : Chan) (p : DsOp → Bool) :
    (s.updBoard f).dropOps c p = (s.dropOps c p).updBoard f := rfl

/-- A response that waits to be sent stands (R146; log entry 8). -/
theorem closeQueue_of_formed {r : Request} {rest : List Request} (hq : (s.chan c).port.queue = r :: rest)
    (hr : r.isWrite = false) (hformed : (s.chan c).port.responseFormed = true) : s.closeQueue c = s := by
  rw [State.closeQueue, State.answerClosing, hq]
  dsimp only
  rw [hr, if_neg Bool.false_ne_true, hformed, if_pos rfl]

theorem enterClosing_lostOpen (f : Channel → Channel)
    (hread : (f (s.chan c)).port.responseFormed = true → ∃ r rest, (f (s.chan c)).port.queue = r :: rest ∧ r.isWrite = false) :
    (s.updChan c f).enterClosing c why = (s.updChan c fun ch => (f ch).lostOpen why).updBoard (·.took .failed) := by
  have hdrop : ((s.updChan c f).updChan c (Channel.closing why)).dropOps c (fun _ => true) =
      s.updChan c fun ch => (f ch).closes why := by
    rw [dropOps_all_eq, updChan_updChan, updChan_updChan]
    rfl
  have hchan : ((s.updChan c fun ch => (f ch).closes why).updBoard (·.took .failed)).chan c = (f (s.chan c)).closes why :=
    chan_updChan_same s c fun ch => (f ch).closes why
  rw [enterClosing_eq, dropOps_updBoard, hdrop]
  have hservice : ((f (s.chan c)).closes why).port.service =
      if (f (s.chan c)).port.responseFormed then (f (s.chan c)).port.service else none := rfl
  cases hformed : (f (s.chan c)).port.responseFormed with
  | true =>
    obtain ⟨r, rest, hq, hr⟩ := hread hformed
    rw [hformed, if_pos rfl] at hservice
    rw [closeQueue_of_formed (r := r) (rest := rest) (by rw [hchan]; exact hq) hr
      (by rw [hchan, Port.responseFormed, hservice]; exact hformed)]
    exact congrArg (State.updBoard · _) (updChan_congr s c (if_pos hformed).symm)
  | false =>
    rw [hformed, if_neg Bool.false_ne_true] at hservice
    rw [closeQueue_eq (by rw [hchan]; exact hservice), updChan_updBoard, updChan_updChan]
    exact congrArg (State.updBoard · _) (updChan_congr s c (if_neg (by rw [hformed]; exact Bool.false_ne_true)).symm)

/-- What a loss leaves of an OPEN or DRAINING channel. -/
theorem lostOpen_eq (ch : Channel)
    (hread : ch.port.responseFormed = true → ∃ r rest, ch.port.queue = r :: rest ∧ r.isWrite = false) :
    let p := ch.port
    let p' := (ch.lostOpen why).port
    ch.lostOpen why = { ch.dropped with
      seq := { ch.seq with
        state := if closingQueue p = [] then .failed else .closing, result := .failed, reason := why },
      port := p' } ∧
    (p.responseFormed = true → p' = { p with detector := .idle }) ∧
    (p.responseFormed = false →
      (closingQueue p = [] → p' = { p with detector := .idle, queue := [], service := none }) ∧
      ∀ r, (closingQueue p).head? = some r →
        p' = { p with
          detector := .idle, queue := closingQueue p, rejected := false, range := false,
          outbound := p.outbound ++ [closingResponse p r], service := p'.service } ∧
        p'.responseFormed = true) := by
  intro p p'
  have hport (hservice : (if ch.port.responseFormed then ch.port.service else none) = ch.port.service) :
      (ch.closes why).port = { p with detector := .idle } := by
    show ({ ch.port with detector := .idle, service := if ch.port.responseFormed then ch.port.service else none } : Port) = _
    rw [hservice]
  cases hformed : ch.port.responseFormed with
  | true =>
    obtain ⟨r, rest, hq, -⟩ := hread hformed
    have hlost : ch.lostOpen why = ch.closes why := if_pos hformed
    have hqueue : closingQueue p ≠ [] := by
      rw [closingQueue, if_pos hformed]
      exact fun h => List.cons_ne_nil r rest (hq.symm.trans h)
    refine ⟨?_, fun _ => ?_, nofun⟩
    · rw [if_neg hqueue]
      rw [show p' = (ch.lostOpen why).port from rfl, hlost]
      rfl
    · show (ch.lostOpen why).port = _
      rw [hlost]
      exact hport (if_pos hformed)
  | false =>
    have hlost : ch.lostOpen why = (ch.closes why).answersNext := if_neg (by rw [hformed]; exact Bool.false_ne_true)
    have hqueue : closingQueue p = p.queue.dropWhile Request.isWrite :=
      if_neg (by rw [show p.responseFormed = false from hformed]; exact Bool.false_ne_true)
    have hp' : p' = (ch.lostOpen why).port := rfl
    rw [hp', hlost, hqueue]
    obtain ⟨hnil, heq⟩ | ⟨r, rest, hcons, heq⟩ := answersNext_cases (ch.closes why)
    · have hnil : p.queue.dropWhile Request.isWrite = [] := hnil
      rw [heq, hnil, if_pos rfl]
      exact ⟨rfl, nofun, fun _ => ⟨fun _ => rfl, nofun⟩⟩
    · have hcons : p.queue.dropWhile Request.isWrite = r :: rest := hcons
      rw [heq, hcons, if_neg (List.cons_ne_nil r rest)]
      refine ⟨rfl, nofun, fun _ => ⟨fun h => absurd h (List.cons_ne_nil r rest), fun r' hr' => ?_⟩⟩
      obtain rfl := Option.some.inj hr'
      exact ⟨rfl, rfl⟩

/-- The loss of an OPEN or DRAINING channel, settled (R104, R156). -/
theorem lostWhileOpen {f : Channel → Channel} (hsame : f (s.chan c) = { s.chan c with
      supplyGood := (f (s.chan c)).supplyGood, ds := (f (s.chan c)).ds })
    (hds : ((f (s.chan c)).dropped).ds = ((s.chan c).dropped).ds)
    (hread : (s.chan c).port.responseFormed = true → ∃ r rest, (s.chan c).port.queue = r :: rest ∧ r.isWrite = false) :
    let t := ((s.updChan c f).enterClosing c why).settle
    LostWhileOpen s t c why ∧ (t.chan c).supplyGood = (f (s.chan c)).supplyGood := by
  intro t
  have hport : (f (s.chan c)).port = (s.chan c).port := by rw [hsame]
  have hseq : (f (s.chan c)).seq = (s.chan c).seq := by rw [hsame]
  have hgeometry : (f (s.chan c)).geometry = (s.chan c).geometry := by rw [hsame]
  have hremap : (f (s.chan c)).remap = (s.chan c).remap := by rw [hsame]
  have hlog : (f (s.chan c)).log = (s.chan c).log := by rw [hsame]
  have hmarch : (f (s.chan c)).march = (s.chan c).march := by rw [hsame]
  have hanalyser : (f (s.chan c)).analyser = (s.chan c).analyser := by rw [hsame]
  obtain ⟨u, hu⟩ : ∃ u, u = (s.updChan c fun ch => (f ch).lostOpen why).updBoard (·.took .failed) := ⟨_, rfl⟩
  have ht : t = u.settle := by
    rw [hu, ← enterClosing_lostOpen f (by rw [hport]; exact hread)]
  have hchan : u.chan c = (f (s.chan c)).lostOpen why := by
    rw [hu]
    exact chan_updChan_same s c fun ch => (f ch).lostOpen why
  obtain ⟨heq, hstands, hanswers⟩ := lostOpen_eq (why := why) (f (s.chan c)) (by rw [hport]; exact hread)
  rw [← hchan] at heq hstands hanswers
  rw [hport] at heq hstands hanswers
  have hshift : Shifts c s u := by
    rw [hu]
    exact shifts_took c s _ .failed
  have hx : (u.seqState c).carriesReport = false := by
    rw [State.seqState, heq]
    dsimp only
    split
    · rfl
    · rfl
  have hops : (u.chan c).ds.ops = [] := by
    rw [heq]
    rfl
  have hfinal : t.chan c = u.chan c := by
    rw [ht, settle_chan_left hx, hops, List.map_nil, ite_self, ← hops]
  have hfault : t.board.fault = true := by
    rw [ht, settle_fault, hu]
    exact Bool.or_true _
  rw [LostWhileOpen, hfinal]
  refine ⟨⟨?_, hfault, hstands, hanswers, ?_, ?_⟩, ?_⟩
  · rw [heq]
    simp only [Channel.dropped] at hds ⊢
    rw [hds, hseq, hgeometry, hremap, hlog, hmarch, hanalyser]
  · rw [ht]
    exact (settle_abandoned hx).of_same hshift.writer hshift.others
  · rw [ht]
    exact hshift.around (by rw [hu]; rfl)
  · rw [heq]
    rfl

end

theorem lose_of_open {s : State} {c : Chan} (hx : s.seqState c = .opened ∨ s.seqState c = .draining) (why : Reason) :
    s.lose c why = (s.enterClosing c why).settle := by
  unfold State.lose
  obtain hx | hx := hx
  · simp only [hx]
  · simp only [hx]

/-- Settles O7. -/
theorem lossWhileOpen : Obligations.LossWhileOpen := by
  intro s c hx hread
  have hstate {f : Channel → Channel} (hf : (f (s.chan c)).seq = (s.chan c).seq) :
      (s.updChan c f).seqState c = .opened ∨ (s.updChan c f).seqState c = .draining := by
    rw [State.seqState, chan_updChan_same, hf]
    exact hx
  refine ⟨fun hgood => ?_, fun hop => ?_⟩
  · have hstep : supplyGoodFall c s =
        ((s.updChan c fun ch => { ch with supplyGood := false }).enterClosing c .supplyLost).settle := by
      rw [supplyGoodFall, if_pos hgood]
      exact lose_of_open (hstate (f := fun ch => { ch with supplyGood := false }) rfl) .supplyLost
    exact ⟨_, congrArg Host.Outcome.next hstep, lostWhileOpen rfl rfl hread⟩
  · have hstep := (noResponse_eq hop).trans (lose_of_open (hstate (f := Channel.dropped) rfl) .noResponse)
    exact ⟨_, congrArg Host.Outcome.next hstep, lostWhileOpen rfl rfl hread⟩

end Sys2Proof.Machine
end

section
/-! A report block completes, and a report write ends (R17, R99, R155, R156): O48 and O49. -/

namespace Sys2Proof.Machine

/-! ### The current block is done with (R155) -/

/-- The part with the current block of the write done with. -/
def State.withBlockDone (s : State) (c : Chan) (ops : List DsOp) (written : List Host.Cell) (shadow : Shadow) (wr : Writer) : State :=
  { s.updChan c (fun ch => { ch with ds := { ch.ds with ops := ops, written := written } }) with shadow := shadow, writer := wr }

section
variable {s : State} {c : Chan} {w : Write} {ops : List DsOp} {written : List Host.Cell} {shadow : Shadow}

theorem withBlockDone_of_same (hops : ops = (s.chan c).ds.ops) (hwritten : written = (s.chan c).ds.written) (wr : Writer) :
    s.withBlockDone c ops written shadow wr = { s with shadow := shadow, writer := wr } := by
  have : s.updChan c (fun ch => { ch with ds := { ch.ds with ops := ops, written := written } }) = s := by
    refine updChan_of_eq ?_
    rw [hops, hwritten]
  unfold State.withBlockDone
  rw [this]

/-- The block completes at memory, at the store, or was discarded; the writer goes on to its next block. -/
theorem reportBlockComplete_done (hw : s.writer.write = some w) (hc : w.chan = c) (hdone : BlockDone s w ops written shadow) :
    ∃ wr : Writer, wr.pendingPublish = s.writer.pendingPublish ∧
      reportBlockComplete c s = (s.withBlockDone c ops written shadow wr).nextReportBlock w := by
  subst hc
  unfold reportBlockComplete
  rw [hw]
  dsimp only
  obtain ⟨hat, op, block, hops, ho, hwrite, hwritten, hshadow⟩ | ⟨e, col, hat, hops, hwritten, hshadow⟩ |
    ⟨hat, hops, hwritten, hshadow⟩ := hdone
  · refine ⟨s.writer, rfl, ?_⟩
    rw [if_neg fun h => by rw [hat] at h; cases h.2]
    unfold State.reportOpComplete
    rw [hops]
    dsimp only [List.head?_cons, Option.map_some]
    rw [ho]
    dsimp only
    rw [hw]
    dsimp only
    rw [if_pos ⟨rfl, hat⟩, completeHead_eq hops]
    refine congrArg (fun x : State => x.nextReportBlock w) ?_
    subst hshadow
    show _ = s.updChan w.chan fun ch => { ch with ds := { ch.ds with ops := ops, written := written } }
    refine updChan_congr s w.chan ?_
    simp only [Channel.completed, landAll, List.foldl_cons, List.foldl_nil, hwrite, hwritten]
  · refine ⟨{ s.writer with write := some { w with blockAt := .settled } }, rfl, ?_⟩
    rw [if_pos ⟨rfl, by rw [hat]; rfl⟩, storeReport_of_store hw rfl hat, withBlockDone_of_same hops hwritten, hshadow]
  · refine ⟨s.writer, rfl, ?_⟩
    have hclear : s.StoreClear w.chan := by
      intro w' e col hw' _ hstore
      rw [hw] at hw'
      cases hw'
      rw [hat] at hstore
      cases hstore
    rw [if_pos ⟨rfl, by rw [hat]; rfl⟩, storeReport_of_clear hclear, withBlockDone_of_same hops hwritten, hshadow]

theorem withBlockDone_chan (s : State) (c : Chan) (ops : List DsOp) (written : List Host.Cell) (shadow : Shadow) (wr : Writer)
    (d : Chan) : (s.withBlockDone c ops written shadow wr).chan d =
      if d = c then { s.chan c with ds := { (s.chan c).ds with ops := ops, written := written } } else s.chan d :=
  chan_updChan s c d fun ch => { ch with ds := { ch.ds with ops := ops, written := written } }

/-- The next block is handed over between two requests (R17). -/
theorem BlockCarried.of_writer {s' t : State} {w : Write} (h : BlockCarried s t w) (hs : s = { s' with writer := s.writer })
    (hpending : s.writer.pendingPublish = s'.writer.pendingPublish) : BlockCarried s' t w := by
  obtain ⟨hframe, hother, hpub, hmem, hstore, hout⟩ := h
  have hchan (d : Chan) : s.chan d = s'.chan d := by rw [hs]; rfl
  rw [hchan] at hmem hstore hout
  refine ⟨hframe.trans (by rw [hs]), fun d hd => (hother d hd).trans (hchan d), hpub.trans hpending, hmem, hstore, hout⟩

end

/-- Settles O48. -/
theorem reportBlockCarried : Obligations.ReportBlockCarried := by
  refine ⟨fun w block h => ?_, fun op => ⟨?_, ?_⟩, fun s c w ops written shadow hw hc hdone hmore => ?_,
    fun s c op rest hops ho hwait => ?_⟩
  · rw [Write.data, h]
    rfl
  · unfold DsOp.isReport
    cases op.owner <;> simp
  · unfold DsOp.isReport DsOp.discardReport
    cases op.owner <;> simp
  · intro s' next
    obtain ⟨wr, hpending, hstep⟩ := reportBlockComplete_done hw hc hdone
    have hnext : (s.withBlockDone c ops written shadow wr).nextReportBlock w =
        (s.withBlockDone c ops written shadow wr).handReportBlock next := if_pos hmore
    have hqueue : ((s.withBlockDone c ops written shadow wr).chan next.chan).port.queue = (s.chan c).port.queue := by
      rw [withBlockDone_chan]
      exact (congrArg (fun ch : Channel => ch.port.queue) (if_pos hc)).trans rfl
    refine ⟨_, congrArg Host.Outcome.next (hstep.trans hnext), fun hq => ?_, fun hq => ?_⟩
    · rw [State.handReportBlock, hqueue, if_neg fun h => hq (List.isEmpty_iff.mp h)]
      show ({ s.withBlockDone c ops written shadow wr with
        writer := { write := some next, pendingPublish := wr.pendingPublish } } : State) = _
      rw [hpending]
      rfl
    · rw [State.handReportBlock, hqueue, if_pos (List.isEmpty_iff.mpr hq)]
      exact (carryReportBlock_carried _ next).of_writer rfl hpending
  · have hcomplete : reportBlockComplete c s = s.reportOpComplete c := by
      unfold reportBlockComplete
      split
      next w hw =>
        rw [if_neg]
        rintro ⟨hc, hoff⟩
        obtain h | h := hwait w hw hc
        · rw [h] at hoff; cases hoff
        · rw [h] at hoff; cases hoff
      next => rfl
    refine exists_onlyChannel (f := Channel.completed op rest) rfl (hcomplete.trans ?_) rfl
    unfold State.reportOpComplete
    rw [hops]
    dsimp only [List.head?_cons, Option.map_some]
    rw [ho]
    exact completeHead_eq hops

end Sys2Proof.Machine
end

section
/-! A report write ends, by completion or by abandonment (R99, R137, R155 to R157): O49. -/

namespace Sys2Proof.Machine

section
variable {s u t : State} {c : Chan} {w : Write}

/-! ### By completion of the last block -/

theorem KeepsRecord.repairs {a b : Channel} (h : KeepsRecord a b) : KeepsRepairs a b := by
  obtain ⟨-, hgeometry, hremap, hlog, -⟩ := h
  exact ⟨hgeometry, hremap, hlog⟩

theorem KeepsRecord.written {a b : Channel} (h : KeepsRecord a b) : b.ds.written = a.ds.written := by
  obtain ⟨-, -, -, -, -, -, -, -, hds, -⟩ := h
  rw [hds]

/-- The channels beside the write's stream stand while its block is done with. -/
theorem withBlockDone_record (s : State) (c : Chan) (ops : List DsOp) (written : List Host.Cell) (shadow : Shadow) (wr : Writer)
    (d : Chan) : (s.withBlockDone c ops written shadow wr).chan d =
      { s.chan d with ds := ((s.withBlockDone c ops written shadow wr).chan d).ds } := by
  rw [withBlockDone_chan]
  split
  next h => rw [h]
  next => rfl

theorem settle_of_endWrite (u : State) (w : Write) : (u.endWrite w).settle = (u.endWrite w).maybeStart.raiseReady :=
  settle_of_idle (endWrite_frame u w).1

/-- A channel that the write's end does not open keeps its sequencer and port. -/
theorem endWrite_stays {d : Chan} (h : ¬(d ∈ w.startSet ∧ u.seqState d = .done)) :
    ((u.endWrite w).settle.chan d).seq = (u.chan d).seq ∧ ((u.endWrite w).settle.chan d).port = (u.chan d).port := by
  obtain ⟨hseq, hport⟩ := maybeStart_record (u := u.endWrite w) d
  rw [settle_of_endWrite, raiseReady_chan, hseq, hport, endWrite_chan, if_neg h]
  exact ⟨rfl, rfl⟩

theorem endWrite_settle_record (u : State) (w : Write) (d : Chan) : KeepsRecord (u.chan d) ((u.endWrite w).settle.chan d) :=
  ((bystander_endWrite u w).2.2.2 d).trans ((bystander_settle (u.endWrite w)).2.2.2 d)

/-! ### By abandonment -/

/-- The write that stands may have had its block translated meanwhile. -/
theorem WriteAbandoned.of_carried (h : WriteAbandoned u t c) (hpending : u.writer.pendingPublish = s.writer.pendingPublish)
    (hwrite : ∀ w, s.writer.write = some w → ∃ at', u.writer.write = some { w with blockAt := at' })
    (hother : ∀ d, d ≠ c → (u.chan d).seq = (s.chan d).seq ∧ (u.chan d).port = (s.chan d).port) : WriteAbandoned s t c := by
  intro w hw hc
  obtain ⟨at', hw'⟩ := hwrite w hw
  obtain ⟨hopens, hne, hidle⟩ := h _ hw' hc
  have hstate (d : Chan) (hd : d ≠ c) : u.seqState d = s.seqState d := congrArg Sequencer.state (hother d hd).1
  refine ⟨fun d hd hdc hx => ?_, hne, fun hp hall => hidle (hpending.trans hp) fun d hdc hx => hall d hdc ?_⟩
  · rw [← (hother d hdc).1, ← (hother d hdc).2]
    exact hopens d hd hdc ((hstate d hdc).trans hx)
  · rw [← hstate d hdc]
    exact hx

theorem BlockCarried.write (h : BlockCarried s t w) : ∃ at', t.writer.write = some { w with blockAt := at' } := by
  obtain ⟨-, -, -, hmem, hstore, hout⟩ := h
  cases hdest : (s.chan w.chan).dest (w.base + w.index) with
  | direct bank row col => exact ⟨_, (hmem _ (by rw [portOp, hdest])).2⟩
  | spare bank row col => exact ⟨_, (hmem _ (by rw [portOp, hdest])).2⟩
  | shadow e col => exact ⟨_, (hstore e col hdest).2⟩
  | outside => exact ⟨_, (hout hdest).2⟩

theorem ReportFirst.write (h : ReportFirst s t c) : t.writer.pendingPublish = s.writer.pendingPublish ∧
    ∀ w, s.writer.write = some w → ∃ at', t.writer.write = some { w with blockAt := at' } := by
  obtain ⟨hcarried, hnone⟩ := h
  by_cases hwait : s.NoneWaits c
  · rw [hnone hwait]
    exact ⟨rfl, fun w hw => ⟨w.blockAt, hw⟩⟩
  · unfold State.NoneWaits at hwait
    push Not at hwait
    obtain ⟨w, hw, hc, hat⟩ := hwait
    have hblock := hcarried w hw hc hat
    refine ⟨hblock.2.2.1, fun w' hw' => ?_⟩
    rw [hw] at hw'
    cases hw'
    exact hblock.write

theorem ReportFirst.others (h : ReportFirst s t c) {d : Chan} (hd : d ≠ c) : t.chan d = s.chan d := by
  obtain ⟨hcarried, hnone⟩ := h
  by_cases hwait : s.NoneWaits c
  · rw [hnone hwait]
  · unfold State.NoneWaits at hwait
    push Not at hwait
    obtain ⟨w, hw, hc, hat⟩ := hwait
    exact (hcarried w hw hc hat).2.1 d (hc ▸ hd)

/-- The frame of CLOSING: one channel, which does not carry a report write (R104, R156). -/
theorem answerClosing_frame (fuel : Nat) : ∀ s : State, s.seqState c = .closing →
    ((State.answerClosing fuel s c).seqState c).carriesReport = false ∧ (State.answerClosing fuel s c).writer = s.writer ∧
      ∀ d, d ≠ c → (State.answerClosing fuel s c).chan d = s.chan d := by
  induction fuel with
  | zero => exact fun s h => ⟨by rw [State.answerClosing, h]; rfl, rfl, fun d _ => rfl⟩
  | succ fuel ih =>
    intro s h
    rw [State.answerClosing]
    split
    · refine ⟨?_, rfl, fun d hd => chan_updSeq_ne s _ hd⟩
      rw [seqState_setSeqState_same]
      rfl
    · split
      · obtain ⟨hx, hwriter, hother⟩ := ih (s.updPort c fun p => { p with queue := _, service := none })
          ((seqState_updPort' _ c).trans h)
        exact ⟨hx, hwriter, fun d hd => (hother d hd).trans (chan_updPort_ne s _ hd)⟩
      · split
        · exact ⟨by rw [h]; rfl, rfl, fun d _ => rfl⟩
        · refine ⟨?_, rfl, fun d hd => chan_updPort_ne s _ hd⟩
          rw [seqState_updPort', h]
          rfl

theorem enterClosing_abandoned (f : Channel → Channel) (why : Reason) :
    WriteAbandoned s ((s.updChan c f).enterClosing c why).settle c := by
  obtain ⟨u, hu⟩ : ∃ u, u = (((s.updChan c f).updChan c (Channel.closing why)).updBoard (·.took .failed)).dropOps c
    fun _ => true := ⟨_, rfl⟩
  have hclosing : u.seqState c = .closing := by
    rw [hu, State.dropOps, seqState_updDs, updChan_updChan]
    exact (seqState_updChan s c c fun ch => (f ch).closing why).trans (if_pos rfl)
  have hother (d : Chan) (hd : d ≠ c) : u.chan d = s.chan d := by
    rw [hu, State.dropOps, chan_updDs_ne _ _ hd, updChan_updChan]
    exact chan_updChan_ne s (fun ch => (f ch).closing why) hd
  obtain ⟨hx, hwriter, hstays⟩ := answerClosing_frame ((u.chan c).port.queue.length + 1) u hclosing
  rw [enterClosing_eq, ← hu]
  exact (settle_abandoned hx).of_same (hwriter.trans (by rw [hu]; rfl)) fun d hd => (hstays d hd).trans (hother d hd)

theorem failChannel_abandoned (f : Channel → Channel) (why : Reason) :
    WriteAbandoned s ((s.updChan c f).failChannel c why).settle c := by
  rw [failChannel_eq, updChan_updChan]
  refine (settle_abandoned (u := (s.updChan c fun ch => (f ch).failed why).updBoard (·.took .failed)) ?_).of_same rfl
    fun d hd => chan_updChan_ne s (fun ch => (f ch).failed why) hd
  have : ((s.updChan c fun ch => (f ch).failed why).updBoard (·.took .failed)).chan c = (f (s.chan c)).failed why :=
    chan_updChan_same s c fun ch => (f ch).failed why
  rw [State.seqState, this]
  rfl

/-- A loss in DONE, OPEN or DRAINING ends a report write on the channel. -/
theorem lose_abandoned {f : Channel → Channel} (hf : (f (s.chan c)).seq = (s.chan c).seq)
    (hx : s.seqState c ∈ [SeqState.done, .opened, .draining]) (why : Reason) :
    WriteAbandoned s ((s.updChan c f).lose c why) c := by
  have hstate : (s.updChan c f).seqState c = s.seqState c := by rw [State.seqState, chan_updChan_same, hf]; rfl
  simp only [List.mem_cons, List.not_mem_nil, or_false] at hx
  obtain hx | hx := hx
  · have hlose : (s.updChan c f).lose c why = (((s.updChan c f).dropOps c DsOp.isReport).failChannel c why).settle := by
      unfold State.lose
      simp only [hstate, hx]
    rw [hlose, State.dropOps, State.updDs, updChan_updChan]
    exact failChannel_abandoned _ why
  · rw [lose_of_open (by rw [hstate]; exact hx)]
    exact enterClosing_abandoned f why

end

/-- Settles O49. -/
theorem reportWriteEnds : Obligations.ReportWriteEnds := by
  refine ⟨fun s c w hw hc hlast ops written shadow hdone => ?_, fun s c hx => ⟨fun hgood => ?_, fun hread => ?_, ?_⟩⟩
  · obtain ⟨wr, hpending, hstep⟩ := reportBlockComplete_done hw hc hdone
    obtain ⟨x, hxdef⟩ : ∃ x, x = s.withBlockDone c ops written shadow wr := ⟨_, rfl⟩
    have hrecord (d : Chan) : x.chan d = { s.chan d with ds := (x.chan d).ds } := by
      rw [hxdef]
      exact withBlockDone_record s c ops written shadow wr d
    have hseq (d : Chan) : (x.chan d).seq = (s.chan d).seq := by rw [hrecord]
    have hport (d : Chan) : (x.chan d).port = (s.chan d).port := by rw [hrecord]
    have hstate (d : Chan) : x.seqState d = s.seqState d := congrArg Sequencer.state (hseq d)
    have hshared : KeepsShared { s with shadow := shadow } x := by
      rw [hxdef]
      exact ⟨rfl, rfl, rfl, rfl, rfl, id⟩
    have hend : reportBlockComplete c s = (x.endWrite w).settle := by
      rw [hstep, ← hxdef, State.nextReportBlock, if_neg (Nat.not_lt.mpr hlast)]
    obtain ⟨hendshared, hendarbiter, hendfault, -⟩ := bystander_endWrite x w
    obtain ⟨hsetshared, hsetarbiter, hsetfault, -⟩ := bystander_settle (x.endWrite w)
    refine ⟨_, congrArg Host.Outcome.next hend, fun d hd hdone => ?_, fun d hnot => ?_, fun d => ?_,
      hshared.trans (hendshared.trans hsetshared), ?_, ?_, ?_, fun hall => ?_, fun hp hall => ?_⟩
    · rw [settle_of_endWrite, raiseReady_chan, ← hseq, ← hport]
      exact endWrite_opens hd ((hstate d).trans hdone)
    · rw [← hseq, ← hport]
      exact endWrite_stays (by rw [hstate]; exact hnot)
    · have hrepairs := (endWrite_settle_record x w d).repairs
      rw [hrecord] at hrepairs
      exact hrepairs
    · rw [(endWrite_settle_record x w c).written, hxdef, withBlockDone_chan, if_pos rfl]
    · rw [hsetarbiter, hendarbiter, hxdef]
      rfl
    · rw [hsetfault, hendfault, hxdef]
      rfl
    · rw [settle_ready, hall, Bool.or_true]
    · rw [settle_writer, abandonWrite_of_none (endWrite_frame x w).1]
      exact endWrite_idle (by rw [hxdef]; exact hpending.trans hp) fun d hd => hall d ((hstate d).symm.trans hd)
  · refine ⟨_, rfl, ?_⟩
    rw [supplyGoodFall, if_pos hgood]
    exact lose_abandoned (f := fun ch => { ch with supplyGood := false }) rfl hx .supplyLost
  · refine ⟨_, rfl, ?_⟩
    rw [noResponse_eq hread]
    exact lose_abandoned (f := Channel.dropped) rfl hx .noResponse
  · intro r m rest hdraining hq hout hm hformed
    obtain ⟨t, hstep, -, u, hfirst, hbegun⟩ := (retestBegins s c r hdraining hq).1 m rest hout hm hformed
    obtain ⟨-, -, -, -, -, -, -, -, -, -, -, habandoned, -⟩ := hbegun
    obtain ⟨hpending, hwrite⟩ := hfirst.write
    refine ⟨t, hstep, habandoned.of_carried hpending hwrite fun d hd => ?_⟩
    rw [hfirst.others hd, leaves, chan_updPort_ne _ _ hd, chan_updPort_ne _ _ hd]
    exact ⟨rfl, rfl⟩

end Sys2Proof.Machine
end

section
/-! The end of a load (R94, R115, R118, R121, R134): the budgets settle, the expiries that come first are delivered, and the
channels that wait select (O16). -/

namespace Sys2Proof.Machine

section
variable {s u w t : State} {c d : Chan} {a b : Channel}

/-! ### The budgets settle (R115) -/

theorem mem_allChans : ∀ d : Chan, d ∈ allChans := by decide

/-- The channel's timer has been given `x`. -/
def Channel.timed (x : Timer) (ch : Channel) : Channel := { ch with seq := { ch.seq with timer := x } }

theorem settleBudgets_eq (s : State) :
    s.settleBudgets = { s with chans := s.settleBudgets.chans } ∧
      ∀ d, s.settleBudgets.chan d =
        (s.chan d).timed (timerSettled (budgetDuration s.strap s.loader.state s.loader.kept) (s.chan d).seq.timer) := by
  obtain ⟨hframe, hchans⟩ := foldl_updChan
    (fun ch => { ch with seq := { ch.seq with timer := ch.seq.timer.settle s.settledBudget } }) (l := allChans) (by decide) s
  refine ⟨hframe, fun d => (hchans d).trans ?_⟩
  rw [if_pos (mem_allChans d), ← settledBudget_eq, ← settle_eq_timerSettled]
  rfl

/-! ### Records and timers -/

theorem KeepsRecord.timer (h : KeepsRecord a b) : b.seq.timer = a.seq.timer := by
  obtain ⟨-, -, -, -, -, -, hseq, -⟩ := h
  rw [hseq]

theorem KeepsRecord.timed (h : KeepsRecord a b) (x : Timer) : KeepsRecord (a.timed x) (b.timed x) := by
  obtain ⟨hsupply, hgeometry, hremap, hlog, hmarch, hanalyser, hseq, hopens, hds⟩ := h
  refine ⟨hsupply, hgeometry, hremap, hlog, hmarch, hanalyser, ?_, hopens, hds⟩
  show ({ b.seq with timer := x } : Sequencer) = _
  rw [hseq]
  rfl

theorem KeepsRecord.of_timed {x : Timer} (h : KeepsRecord (a.timed x) b) : KeepsRecord (a.timed b.seq.timer) b := by
  rwa [show b.seq.timer = x from h.timer]

/-! ### The expiry of one channel (R117, R118, R120) -/

/-- The channel, if it knows its identity and width, has selected on the identity as read (R118). -/
def Channel.unread (strap : BitVec 8) (ch : Channel) : Channel :=
  match ch.seq.identityRead, ch.seq.width with
  | some v, some w =>
    match decodeIdentity v w with
    | none => (ch.chose v false).failed .geometry
    | some g => (ch.selects v false g none).untested strap
  | _, _ => ch

/-- The channel's identity and width are known. -/
def Channel.Known (ch : Channel) (v : BitVec 16) (w : Width) : Prop :=
  ch.seq.identityRead = some v ∧ ch.seq.width = some w

/-- The channel after the expiry of its budget (R117, R118, R120). -/
def Channel.atExpiry (strap : BitVec 8) (ch : Channel) : Channel :=
  match ch.seq.state with
  | .powering => Channel.failed .notReady { ch.expired with seq := { ch.expired.seq with supplyWait := false } }
  | .identifying => ch.expired.unidentified.failed .notReady
  | .selecting => ch.expired.unread strap
  | _ => ch.expired

/-- The channel takes a result when its budget expires that raises FAULT (R158). -/
def Channel.FaultsAtExpiry (ch : Channel) : Prop :=
  ch.seq.state = .powering ∨ ch.seq.state = .identifying ∨ ch.seq.state = .selecting ∧ ∃ v w, ch.Known v w

/-- What an expiry does to the part: the channel, a result taken, and what the Report Writer makes of it. -/
structure ExpiryTaken (c : Chan) (s t : State) : Prop where
  shared : KeepsShared s t
  arbiter : t.arbiter = s.arbiter
  fault : s.board.fault = true → t.board.fault = true
  others : ∀ d, d ≠ c → KeepsRecord (s.chan d) (t.chan d)
  self : KeepsRecord ((s.chan c).atExpiry s.strap) (t.chan c)
  faults : (s.chan c).FaultsAtExpiry → t.board.fault = true

/-- The channel has changed as its expiry says, with the result `r` taken, and the change is settled. -/
theorem ExpiryTaken.of_settled {f : Channel → Channel} {r : EndResult} (hf : f (s.chan c) = (s.chan c).atExpiry s.strap)
    (hr : (s.chan c).FaultsAtExpiry → r.isFault = true) :
    ExpiryTaken c s ((s.updChan c f).updBoard (·.took r)).settle := by
  have hshift := shifts_took c s f r
  have hself := (bystander_settle ((s.updChan c f).updBoard (·.took r))).2.2.2 c
  rw [chan_updBoard, chan_updChan_same, hf] at hself
  have hfault : ((s.updChan c f).updBoard (·.took r)).settle.board.fault = (s.board.fault || r.isFault) := settle_fault _
  refine ⟨hshift.shared_settle, settle_arbiter _, fun h => ?_, hshift.others_settle, hself, fun h => ?_⟩
  · rw [hfault, h, Bool.true_or]
  · rw [hfault, hr h, Bool.or_true]

/-- The channel's timer has expired, and nothing else: it takes no result. -/
theorem ExpiryTaken.of_expired (hx : s.seqState c ∉ [SeqState.powering, .identifying, .selecting]) :
    ExpiryTaken c s (s.updChan c Channel.expired) := by
  simp only [State.seqState, List.mem_cons, List.not_mem_nil, or_false, not_or] at hx
  obtain ⟨hpowering, hidentifying, hselecting⟩ := hx
  have hself : (s.chan c).atExpiry s.strap = (s.chan c).expired := by
    unfold Channel.atExpiry
    split
    next h => exact absurd h hpowering
    next h => exact absurd h hidentifying
    next h => exact absurd h hselecting
    next => rfl
  refine ⟨⟨rfl, rfl, rfl, rfl, rfl, id⟩, rfl, id, fun d hd => ?_, ?_, fun h => ?_⟩
  · rw [chan_updChan_ne s Channel.expired hd]
    exact .rfl' _
  · rw [chan_updChan_same, hself]
    exact .rfl' _
  · obtain h | h | ⟨h, -⟩ := h
    · exact absurd h hpowering
    · exact absurd h hidentifying
    · exact absurd h hselecting

theorem unread_of_none {strap : BitVec 8} {v : BitVec 16} {w : Width} (h : a.Known v w) (hdec : decodeIdentity v w = none) :
    a.unread strap = (a.chose v false).failed .geometry := by
  obtain ⟨hv, hw⟩ := h
  simp only [Channel.unread, hv, hw, hdec]

theorem unread_of_some {strap : BitVec 8} {v : BitVec 16} {w : Width} {g : Geometry} (h : a.Known v w)
    (hdec : decodeIdentity v w = some g) : a.unread strap = (a.selects v false g none).untested strap := by
  obtain ⟨hv, hw⟩ := h
  simp only [Channel.unread, hv, hw, hdec]

theorem unread_of_unknown {strap : BitVec 8} (h : ∀ v w, ¬a.Known v w) : a.unread strap = a := by
  unfold Channel.unread
  split
  next v w hv hw => exact absurd ⟨hv, hw⟩ (h v w)
  next => rfl

theorem selectUnread_of_known {v : BitVec 16} {wd : Width} (h : (s.chan c).Known v wd) :
    s.selectUnread c = s.selectOn c v false wd none false := by
  obtain ⟨hv, hw⟩ := h
  simp only [State.selectUnread, hv, hw]

theorem selectUnread_of_unknown (h : ∀ v wd, ¬(s.chan c).Known v wd) : s.selectUnread c = s := by
  unfold State.selectUnread
  split
  next v w hv hw => exact absurd ⟨hv, hw⟩ (h v w)
  next => rfl

/-- A budget expires in SELECTING: the channel selects on the identity as read (R118). -/
theorem expiryTaken_selecting (hx : s.seqState c = .selecting) :
    ExpiryTaken c s ((s.updChan c Channel.expired).expireBudget c) := by
  have hself : (s.chan c).atExpiry s.strap = (s.chan c).expired.unread s.strap := by
    unfold Channel.atExpiry
    rw [show (s.chan c).seq.state = .selecting from hx]
  rw [expireBudget_selecting (by rwa [seqState_expired])]
  by_cases hknown : ∃ v wd, (s.chan c).Known v wd
  · obtain ⟨v, wd, hknown⟩ := hknown
    have hknown' : (s.chan c).expired.Known v wd := hknown
    rw [selectUnread_of_known (by rwa [chan_updChan_same])]
    cases hdec : decodeIdentity v wd with
    | none =>
      rw [selectOn_of_undecodable hdec, failChannel_eq, updChan_updChan, updChan_updChan]
      exact .of_settled (hself.trans (unread_of_none hknown' hdec)).symm fun _ => rfl
    | some g =>
      rw [selectOn_untested hdec, updChan_updChan]
      exact .of_settled (hself.trans (unread_of_some hknown' hdec)).symm fun _ => rfl
  · have hunknown (v : BitVec 16) (wd : Width) : ¬(s.chan c).Known v wd := fun h => hknown ⟨v, wd, h⟩
    rw [selectUnread_of_unknown (by rw [chan_updChan_same]; exact hunknown)]
    obtain ⟨hshared, harb, hfault, hrecord⟩ := bystander_settle (s.updChan c Channel.expired)
    refine ⟨(shifts_updChan c s Channel.expired).shared_settle, harb, fun h => hfault.trans h,
      (shifts_updChan c s Channel.expired).others_settle, ?_, fun h => ?_⟩
    · rw [hself, unread_of_unknown (show ∀ v w, ¬(s.chan c).expired.Known v w from hunknown)]
      have := hrecord c
      rwa [chan_updChan_same] at this
    · obtain h | h | ⟨-, h⟩ := h
      · exact absurd (hx.symm.trans h) (by decide)
      · exact absurd (hx.symm.trans h) (by decide)
      · exact absurd h hknown

/-- A running timer expires on a channel that holds no slot, waits for none, and analyses nothing (R116 to R118, R120). -/
theorem deliverExpiry_taken {ms : Nat} (hms : (s.chan c).seq.timer = .running ms)
    (hx : s.seqState c ∉ [SeqState.queued, .testing, .analysing]) : ExpiryTaken c s (s.deliverExpiry c) := by
  have heq : s.deliverExpiry c = (s.updChan c Channel.expired).expireBudget c := deliverExpiry_eq hms
  rw [heq]
  cases hstate : s.seqState c with
  | powering =>
    rw [expireBudget_powering (by rwa [seqState_expired]), State.updSeq, failChannel_eq, updChan_updChan, updChan_updChan]
    refine .of_settled ?_ fun _ => rfl
    unfold Channel.atExpiry
    rw [show (s.chan c).seq.state = .powering from hstate]
  | identifying =>
    rw [expireBudget_identifying (by rwa [seqState_expired]), stopIdentify_eq, failChannel_eq, updChan_updChan, updChan_updChan]
    refine .of_settled ?_ fun _ => rfl
    unfold Channel.atExpiry
    rw [show (s.chan c).seq.state = .identifying from hstate]
  | selecting => exact expiryTaken_selecting hstate
  | queued | testing | analysing => simp [hstate] at hx
  | done | opened | draining | closing | failed | absent =>
    rw [expireBudget_of_done (by rw [seqState_expired, hstate]; decide)]
    exact .of_expired (by rw [hstate]; decide)

/-! ### The expiries that come before the selections (log entry 7) -/

/-- Channel `d` is to expire: it is named, and its timer runs. -/
def State.Due (s : State) (l : List Chan) (d : Chan) : Prop := d ∈ l ∧ ∃ ms, (s.chan d).seq.timer = .running ms

/-- The expiries of the channels of `l` have been delivered. -/
structure AfterExpiries (s u : State) (l : List Chan) : Prop where
  shared : KeepsShared s u
  arbiter : u.arbiter = s.arbiter
  rest : ∀ d, ¬s.Due l d → KeepsRecord (s.chan d) (u.chan d)
  due : ∀ d, s.Due l d → ∃ a, KeepsRecord (s.chan d) a ∧ KeepsRecord (a.atExpiry s.strap) (u.chan d) ∧
    (a.FaultsAtExpiry → u.board.fault = true)

theorem unread_timer (strap : BitVec 8) (ch : Channel) : (ch.unread strap).seq.timer = ch.seq.timer := by
  unfold Channel.unread
  split
  · split
    · rfl
    · rfl
  · rfl

theorem atExpiry_timer (strap : BitVec 8) (ch : Channel) : (ch.atExpiry strap).seq.timer = .expired := by
  unfold Channel.atExpiry
  split
  next => rfl
  next => rfl
  next => exact unread_timer strap ch.expired
  next => rfl

/-- A record keeps a channel out of the states of its testing. -/
theorem KeepsRecord.not_testing (h : KeepsRecord a b) (hx : a.seq.state ∉ [SeqState.queued, .testing, .analysing]) :
    b.seq.state ∉ [SeqState.queued, .testing, .analysing] := by
  obtain ⟨-, -, -, -, -, -, -, hopens, -⟩ := h
  obtain ⟨h, -⟩ | ⟨-, h, -⟩ := hopens
  · rwa [h]
  · rw [h]; decide

theorem AfterExpiries.deliver {l : List Chan} (h : AfterExpiries s u l) (e : Chan)
    (hx : s.seqState e ∉ [SeqState.queued, .testing, .analysing]) : AfterExpiries s (u.deliverExpiry e) (l ++ [e]) := by
  have hdue (d : Chan) : s.Due (l ++ [e]) d ↔ s.Due l d ∨ d = e ∧ ∃ ms, (s.chan d).seq.timer = .running ms := by
    unfold State.Due
    rw [List.mem_append, List.mem_singleton, or_and_right]
  by_cases hnew : ¬s.Due l e ∧ ∃ ms, (s.chan e).seq.timer = .running ms
  · obtain ⟨hnot, ms, hms⟩ := hnew
    have hrecord := h.rest e hnot
    obtain ⟨hshared, harb, hfault, hothers, hself, hfaults⟩ :=
      deliverExpiry_taken (hrecord.timer.trans hms) (hrecord.not_testing hx)
    have hstrap : u.strap = s.strap := h.shared.2.1
    refine ⟨h.shared.trans hshared, harb.trans h.arbiter, fun d hd => ?_, fun d hd => ?_⟩
    · rw [hdue, not_or] at hd
      exact (h.rest d hd.1).trans (hothers d fun hde => hd.2 ⟨hde, hde ▸ ⟨ms, hms⟩⟩)
    · by_cases hde : d = e
      · subst hde
        exact ⟨u.chan d, hrecord, hstrap ▸ hself, hfaults⟩
      · obtain ⟨a, ha, hau, haf⟩ := h.due d (((hdue d).mp hd).resolve_right fun hd' => hde hd'.1)
        exact ⟨a, ha, hau.trans (hothers d hde), fun hf => hfault (haf hf)⟩
  · have hsame : u.deliverExpiry e = u := by
      refine deliverExpiry_of_not_running fun ms hms => ?_
      by_cases hd : s.Due l e
      · obtain ⟨a, -, hau, -⟩ := h.due e hd
        exact absurd (hms.symm.trans (hau.timer.trans (atExpiry_timer s.strap a))) nofun
      · exact hnew ⟨hd, ms, (h.rest e hd).timer.symm.trans hms⟩
    have hiff (d : Chan) : s.Due (l ++ [e]) d ↔ s.Due l d := by
      refine (hdue d).trans (or_iff_left_of_imp ?_)
      rintro ⟨rfl, hms⟩
      by_contra hd
      exact hnew ⟨hd, hms⟩
    rw [hsame]
    exact ⟨h.shared, h.arbiter, fun d hd => h.rest d (mt (hiff d).mpr hd), fun d hd => h.due d ((hiff d).mp hd)⟩

theorem afterExpiries_foldl (l : List Chan) (hl : ∀ c ∈ l, s.seqState c ∉ [SeqState.queued, .testing, .analysing]) :
    AfterExpiries s (l.foldl (fun y c => y.deliverExpiry c) s) l := by
  induction l using List.reverseRecOn with
  | nil => exact ⟨.rfl' s, rfl, fun d _ => .rfl' _, fun d hd => absurd hd.1 List.not_mem_nil⟩
  | append_singleton l e ih =>
    rw [List.foldl_concat]
    exact (ih fun c hc => hl c (List.mem_append_left _ hc)).deliver e (hl e (List.mem_append_right _ (List.mem_singleton_self e)))

/-! ### The selections (R94 to R96) -/

/-- What the selection of one channel leaves of the part. -/
structure SelectionFrame (c : Chan) (s t : State) : Prop where
  shared : KeepsShared s t
  fault : s.board.fault = true → t.board.fault = true
  holders : ∀ d ∈ s.arbiter.holders, d ∈ t.arbiter.holders
  waiting : ∀ d ∈ s.arbiter.waitQueue, d ∈ t.arbiter.waitQueue
  others : ∀ d, d ≠ c → t.chan d = s.chan d

theorem SelectionFrame.rfl' (c : Chan) (s : State) : SelectionFrame c s s :=
  ⟨.rfl' s, id, fun _ => id, fun _ => id, fun _ _ => rfl⟩

theorem SelectionFrame.of_took (f : Channel → Channel) (r : EndResult) :
    SelectionFrame c s ((s.updChan c f).updBoard (·.took r)) :=
  ⟨⟨rfl, rfl, rfl, rfl, rfl, id⟩, fun h => by rw [board_updBoard, Board.took, board_updChan, h, Bool.true_or],
    fun _ => id, fun _ => id, fun _ hd => chan_updChan_ne s f hd⟩

theorem SelectionFrame.of_request (f : Channel → Channel) : SelectionFrame c s ((s.updChan c f).requestSlot c) := by
  rw [updChan_requestSlot_eq]
  split
  next => exact ⟨⟨rfl, rfl, rfl, rfl, rfl, id⟩, id, fun _ => List.mem_append_left _, fun _ => id, fun _ hd => chan_updChan_ne _ _ hd⟩
  next => exact ⟨⟨rfl, rfl, rfl, rfl, rfl, id⟩, id, fun _ => id, fun _ => List.mem_append_left _, fun _ hd => chan_updChan_ne _ _ hd⟩

theorem chan_took (f : Channel → Channel) (r : EndResult) :
    ((s.updChan c f).updBoard (·.took r)).chan c = f (s.chan c) := chan_updChan_same s c f

/-- Channel `c` has made its selection: from `a` it has failed, asked for a slot, or become UNTESTED (R95, R96, R111). -/
def Selected (strap : BitVec 8) (l : Loader) (a : Channel) (t : State) (c : Chan) (v : BitVec 16) (w : Width) : Prop :=
  let eff := (l.aliasFor c).getD v
  let viaAlias := (l.aliasFor c).isSome
  (decodeIdentity eff w = none → t.chan c = (a.chose eff viaAlias).failed .geometry ∧ t.board.fault = true) ∧
  ∀ g, decodeIdentity eff w = some g →
    let b := a.selects eff viaAlias g (l.profileFor eff)
    ((strapSlotCode strap != 0 && !l.skips c) = false → t.chan c = b.untested strap ∧ t.board.fault = true) ∧
    ((strapSlotCode strap != 0 && !l.skips c) = true →
      t.chan c = (b.wantsBank 0).queued.granted ∧ c ∈ t.arbiter.holders ∨
      t.chan c = (b.wantsBank 0).queued ∧ c ∈ t.arbiter.waitQueue)

/-- A selection stands while other channels select. -/
theorem Selected.mono {strap : BitVec 8} {l : Loader} {v : BitVec 16} {wd : Width} (h : Selected strap l a u d v wd)
    (hframe : SelectionFrame c u t) (hne : d ≠ c) : Selected strap l a t d v wd := by
  have hchan := hframe.others d hne
  obtain ⟨hnone, hsome⟩ := h
  refine ⟨fun hdec => ?_, fun g hdec => ⟨fun htest => ?_, fun htest => ?_⟩⟩
  · exact (hnone hdec).imp hchan.trans hframe.fault
  · exact ((hsome g hdec).1 htest).imp hchan.trans hframe.fault
  · exact ((hsome g hdec).2 htest).imp (And.imp hchan.trans (hframe.holders d)) (And.imp hchan.trans (hframe.waiting d))

theorem selectChannel_selected {v : BitVec 16} {wd : Width} (h : (s.chan c).Known v wd) :
    SelectionFrame c s (s.selectChannel c) ∧ Selected s.strap s.loader (s.chan c) (s.selectChannel c) c v wd := by
  rw [selectChannel_eq h.1 h.2]
  unfold Selected
  obtain ⟨eff, heff⟩ : ∃ eff, (s.loader.aliasFor c).getD v = eff := ⟨_, rfl⟩
  obtain ⟨test, htest⟩ : ∃ x, (strapSlotCode s.strap != 0 && !s.loader.skips c) = x := ⟨_, rfl⟩
  simp only [heff, htest]
  cases hdec : decodeIdentity eff wd with
  | none =>
    rw [selectOn_of_undecodable hdec, failChannel_eq, updChan_updChan]
    exact ⟨.of_took _ _, fun _ => ⟨chan_took _ _, Bool.or_true _⟩, nofun⟩
  | some g =>
    cases test with
    | false =>
      rw [selectOn_untested hdec]
      refine ⟨.of_took _ _, nofun, fun g' hg => ?_⟩
      obtain rfl := Option.some.inj hg
      exact ⟨fun _ => ⟨chan_took _ _, Bool.or_true _⟩, nofun⟩
    | true =>
      rw [selectOn_test hdec]
      refine ⟨.of_request _, nofun, fun g' hg => ?_⟩
      obtain rfl := Option.some.inj hg
      refine ⟨nofun, fun _ => ?_⟩
      rw [updChan_requestSlot_eq]
      split
      next => exact .inl ⟨chan_updChan_same .., List.mem_append_right _ (List.mem_singleton_self c)⟩
      next => exact .inr ⟨chan_updChan_same .., List.mem_append_right _ (List.mem_singleton_self c)⟩

theorem selectChannel_of_unknown (h : ∀ v wd, ¬(s.chan c).Known v wd) : s.selectChannel c = s := by
  unfold State.selectChannel
  split
  next v w hv hw => exact absurd ⟨hv, hw⟩ (h v w)
  next => rfl

theorem Selected.leaves {strap : BitVec 8} {l : Loader} {v : BitVec 16} {wd : Width} (h : Selected strap l a t c v wd) :
    t.seqState c ≠ .selecting := by
  obtain ⟨hnone, hsome⟩ := h
  unfold State.seqState
  cases hdec : decodeIdentity ((l.aliasFor c).getD v) wd with
  | none =>
    rw [(hnone hdec).1]
    exact nofun
  | some g =>
    obtain ⟨hskip, htest⟩ := hsome g hdec
    cases h : (strapSlotCode strap != 0 && !l.skips c) with
    | false =>
      rw [(hskip h).1]
      show (if strapPublish strap then SeqState.done else .opened) ≠ .selecting
      split
      · exact nofun
      · exact nofun
    | true =>
      obtain ⟨h, -⟩ | ⟨h, -⟩ := htest h
      · rw [h, granted_state]; exact nofun
      · rw [h]; exact nofun

/-- The channels of `l` that waited have selected. -/
structure AfterSelections (u w : State) (l : List Chan) : Prop where
  shared : KeepsShared u w
  fault : u.board.fault = true → w.board.fault = true
  rest : ∀ d, (d ∈ l → u.seqState d = .selecting → ∀ v wd, ¬(u.chan d).Known v wd) → w.chan d = u.chan d
  chosen : ∀ d ∈ l, u.seqState d = .selecting → ∀ v wd, (u.chan d).Known v wd →
    Selected u.strap u.loader (u.chan d) w d v wd

theorem AfterSelections.select {l : List Chan} (h : AfterSelections u w l) (e : Chan) :
    AfterSelections u (w.selectIfWaiting e) (l ++ [e]) := by
  have hmem (d : Chan) : d ∈ l ++ [e] ↔ d ∈ l ∨ d = e := by rw [List.mem_append, List.mem_singleton]
  by_cases hnew : e ∉ l ∧ u.seqState e = .selecting ∧ ∃ v wd, (u.chan e).Known v wd
  · obtain ⟨hnot, hx, v, wd, hknown⟩ := hnew
    have hsame : w.chan e = u.chan e := h.rest e fun he => absurd he hnot
    have hw : w.selectIfWaiting e = w.selectChannel e := if_pos (show (w.chan e).seq.state = .selecting from hsame ▸ hx)
    obtain ⟨hframe, hsel⟩ := selectChannel_selected (s := w) (c := e) (v := v) (wd := wd) (hsame ▸ hknown)
    obtain ⟨-, hstrap, -, hloader, -⟩ := h.shared
    rw [hstrap, hloader, hsame] at hsel
    rw [hw]
    refine ⟨h.shared.trans hframe.shared, hframe.fault ∘ h.fault, fun d hd => ?_, fun d hd hx' v' wd' hknown' => ?_⟩
    · have hde : d ≠ e := by
        rintro rfl
        exact hd ((hmem d).mpr (.inr rfl)) hx v wd hknown
      exact (hframe.others d hde).trans (h.rest d fun hl => hd ((hmem d).mpr (.inl hl)))
    · by_cases hde : d = e
      · subst hde
        obtain rfl := Option.some.inj (hknown.1.symm.trans hknown'.1)
        obtain rfl := Option.some.inj (hknown.2.symm.trans hknown'.2)
        exact hsel
      · exact (h.chosen d (((hmem d).mp hd).resolve_right hde) hx' v' wd' hknown').mono hframe hde
  · have hsame : w.selectIfWaiting e = w := by
      unfold State.selectIfWaiting
      split
      next hx =>
        by_cases hall : e ∈ l → u.seqState e = .selecting → ∀ v wd, ¬(u.chan e).Known v wd
        · have hchan := h.rest e hall
          refine selectChannel_of_unknown fun v wd hknown => hnew ?_
          rw [State.seqState, hchan] at hx
          rw [hchan] at hknown
          exact ⟨fun he => hall he hx v wd hknown, hx, v, wd, hknown⟩
        · push Not at hall
          obtain ⟨he, hx', v, wd, hknown⟩ := hall
          exact absurd hx (h.chosen e he hx' v wd hknown).leaves
      next => rfl
    rw [hsame]
    refine ⟨h.shared, h.fault, fun d hd => h.rest d fun hl => hd ((hmem d).mpr (.inl hl)), fun d hd hx v wd hknown => ?_⟩
    obtain hl | rfl := (hmem d).mp hd
    · exact h.chosen d hl hx v wd hknown
    · exact h.chosen d (by_contra fun hl => hnew ⟨hl, hx, v, wd, hknown⟩) hx v wd hknown

theorem afterSelections_foldl (u : State) (l : List Chan) :
    AfterSelections u (l.foldl (fun y c => y.selectIfWaiting c) u) l := by
  induction l using List.reverseRecOn with
  | nil => exact ⟨.rfl' u, id, fun _ _ => rfl, fun _ hd => absurd hd List.not_mem_nil⟩
  | append_singleton l e ih =>
    rw [List.foldl_concat]
    exact ih.select e

/-! ### What the channels have become -/

/-- A channel that became UNTESTED waits in DONE, or has opened, then or by a report write's end (R99). -/
theorem opensOrWaits_of_untested (h : KeepsRecord (a.untested s.strap) (t.chan c)) (hport : a.port = (s.chan c).port) :
    OpensOrWaits s t c := by
  obtain ⟨-, -, -, -, -, -, -, hopens, -⟩ := h
  have hstate : (a.untested s.strap).seq.state = if strapPublish s.strap then .done else .opened := rfl
  have hport' : (a.untested s.strap).port = if strapPublish s.strap then (s.chan c).port else portOpened (s.chan c).port :=
    congrArg (portWhenDone s.strap) hport
  cases hp : strapPublish s.strap with
  | true =>
    rw [hp, if_pos rfl] at hstate hport'
    refine ⟨?_, fun h => absurd (hp.symm.trans h) nofun⟩
    obtain ⟨hx, hport⟩ | ⟨-, hx, hport⟩ := hopens
    · exact .inl ⟨hx.trans hstate, hport.trans hport'⟩
    · exact .inr ⟨hx, hport.trans (congrArg portOpened hport')⟩
  | false =>
    rw [hp, if_neg nofun] at hstate hport'
    obtain ⟨hx, hport⟩ | ⟨hx, -⟩ := hopens
    · exact ⟨.inr ⟨hx.trans hstate, hport.trans hport'⟩, fun _ => hx.trans hstate⟩
    · exact absurd (hstate.symm.trans hx) nofun

/-- A record of a channel in `x` other than DONE, its timer at `y`. -/
theorem KeepsRecord.ds_of_timed {y : Timer} (h : KeepsRecord (b.timed y) a) (hx : b.seq.state ≠ .done) :
    ∃ ds, a = { b.timed y with ds := ds } ∧ KeepsStream b.ds ds := by
  have hstands := h.stands (h.state_eq hx)
  exact ⟨a.ds, hstands.same, hstands.stream⟩

/-- A channel in SELECTING whose budget has expired (R118). -/
theorem selectedUnread_of_record {v : BitVec 16} {wd : Width} {y : Timer} (hx : s.seqState c = .selecting)
    (hknown : (s.chan c).Known v wd) (ha : KeepsRecord ((s.chan c).timed y) a)
    (ht : KeepsRecord (a.atExpiry s.strap) (t.chan c)) (hfault : t.board.fault = true) : SelectedUnread s t c v wd := by
  have hx : (s.chan c).seq.state = .selecting := hx
  obtain ⟨ds, rfl, -⟩ := ha.ds_of_timed (by rw [hx]; exact nofun)
  rw [show Channel.atExpiry s.strap { (s.chan c).timed y with ds := ds } =
      Channel.unread s.strap { (s.chan c).timed .expired with ds := ds } by
    unfold Channel.atExpiry
    rw [show ({ (s.chan c).timed y with ds := ds } : Channel).seq.state = .selecting from hx]
    rfl] at ht
  have hknown : ({ (s.chan c).timed .expired with ds := ds } : Channel).Known v wd := hknown
  cases hdec : decodeIdentity v wd with
  | none =>
    rw [unread_of_none hknown hdec] at ht
    have hstands := ht.stands (ht.state_eq nofun)
    refine ⟨hstands.log, hstands.remap, fun _ => ⟨?_, hstands.geometry, hstands.port, hstands.seq⟩, fun g h => ?_⟩
    · rw [FailedWith, hstands.seq]
      exact ⟨rfl, rfl, rfl, hfault⟩
    · exact absurd (hdec.symm.trans h) nofun
  | some g =>
    rw [unread_of_some hknown hdec] at ht
    obtain ⟨hgeometry, hremap, hlog⟩ := ht.repairs
    refine ⟨hlog, hremap, fun h => absurd (hdec.symm.trans h) nofun, fun g' hg => ?_⟩
    obtain rfl := Option.some.inj (hdec.symm.trans hg)
    have hopens : OpensOrWaits s t c := opensOrWaits_of_untested ht rfl
    obtain ⟨-, -, -, -, -, -, hseq, -⟩ := ht
    exact ⟨hgeometry, hfault, hopens, hseq⟩

theorem KeepsStream.trans {x y z : Downstream} (h : KeepsStream x y) (h' : KeepsStream y z) : KeepsStream x z := by
  obtain ⟨hds, hown⟩ := h
  obtain ⟨hds', hown'⟩ := h'
  exact ⟨hds'.trans (by rw [hds]), hown'.trans hown⟩

theorem queued_granted_of_geometry {g : Geometry} (h : a.geometry = some g) :
    a.queued.granted = { a with
      seq := { a.seq with state := .testing, entered := a.seq.entered ++ [a.seq.nextBank] },
      march := some (Sweep.start a.seq.march a.seq.nextBank g),
      ds := { a.ds with ops := a.ds.ops ++ (Sweep.start a.seq.march a.seq.nextBank g).blockOps g } } :=
  granted_of_geometry (ch := a.queued) h

theorem filter_blockOps (m : Sweep) (g : Geometry) :
    (m.blockOps g).filter (fun op => !op.isReport) = m.blockOps g := by
  unfold Sweep.blockOps
  split
  next => rfl
  next e _ =>
    refine List.filter_eq_self.mpr fun op hop => ?_
    obtain ⟨o, -, rfl⟩ := List.mem_map.mp hop
    rfl

/-- A channel that waited in SELECTING at the load's end (R94 to R96). -/
theorem selectedByLoad_of_selected {v : BitVec 16} {wd : Width} {y : Timer} (hx : s.seqState c = .selecting)
    (ha : KeepsRecord ((s.chan c).timed y) a) (hsel : Selected s.strap t.loader a w c v wd)
    (ht : KeepsRecord (w.chan c) (t.chan c)) (harb : t.arbiter = w.arbiter) (hfault : t.board.fault = w.board.fault) :
    SelectedByLoad s t c v wd := by
  have hx : (s.chan c).seq.state = .selecting := hx
  obtain ⟨ds, rfl, hstream⟩ := ha.ds_of_timed (by rw [hx]; exact nofun)
  obtain ⟨hnone, hsome⟩ := hsel
  unfold SelectedByLoad
  dsimp only at hnone hsome ⊢
  cases hdec : decodeIdentity ((t.loader.aliasFor c).getD v) wd with
  | none =>
    obtain ⟨hw, hwf⟩ := hnone hdec
    rw [hw] at ht
    have hstands := ht.stands (ht.state_eq nofun)
    refine ⟨hstands.log, hstands.remap, fun _ => ⟨?_, hstands.geometry, hstands.port, ?_⟩, nofun⟩
    · rw [FailedWith, hstands.seq]
      exact ⟨rfl, rfl, rfl, hfault.trans hwf⟩
    · rw [hstands.seq]
      rfl
  | some g =>
    obtain ⟨hskip, htest⟩ := hsome g hdec
    cases htests : (strapSlotCode s.strap != 0 && !t.loader.skips c) with
    | false =>
      obtain ⟨hw, hwf⟩ := hskip htests
      rw [hw] at ht
      obtain ⟨hgeometry, hremap, hlog⟩ := ht.repairs
      have hopens : OpensOrWaits s t c := opensOrWaits_of_untested ht rfl
      have htimer : (t.chan c).seq.timer = y := ht.timer
      obtain ⟨-, -, -, -, -, -, hseq, -⟩ := ht
      refine ⟨hlog, hremap, nofun, fun g' hg => ?_⟩
      obtain rfl := Option.some.inj hg
      refine ⟨hgeometry, fun _ => ⟨?_, hfault.trans hwf, hopens⟩, fun h1 h2 => ?_⟩
      · rw [htimer]
        exact hseq
      · simp [h1, h2] at htests
    | true =>
      have hnot : ¬(strapSlotCode s.strap = 0 ∨ t.loader.skips c = true) := by
        simpa [not_or] using htests
      obtain ⟨hw, hmem⟩ | ⟨hw, hmem⟩ := htest htests
      · rw [queued_granted_of_geometry rfl] at hw
        rw [hw] at ht
        have hstands := ht.stands (ht.state_eq nofun)
        refine ⟨hstands.log, hstands.remap, nofun, fun g' hg => ?_⟩
        obtain rfl := Option.some.inj hg
        refine ⟨hstands.geometry, fun h => absurd h hnot, fun _ _ => ⟨hstands.port, .inl ⟨?_, harb ▸ hmem, ?_⟩⟩⟩
        · rw [hstands.seq]
          rfl
        · obtain ⟨hds, hown⟩ := hstands.stream
          obtain ⟨hds', hown'⟩ := hstream
          refine ⟨?_, hds.trans ?_, hown.trans ?_⟩
          · rw [hstands.same]
            rfl
          · rw [hds']
            rfl
          · rw [hstands.seq, Downstream.ownOps, List.filter_append, filter_blockOps]
            exact congrArg (· ++ _) hown'
      · rw [hw] at ht
        have hstands := ht.stands (ht.state_eq nofun)
        refine ⟨hstands.log, hstands.remap, nofun, fun g' hg => ?_⟩
        obtain rfl := Option.some.inj hg
        refine ⟨hstands.geometry, fun h => absurd h hnot, fun _ _ => ⟨hstands.port, .inr ⟨?_, harb ▸ hmem, ?_⟩⟩⟩
        · rw [hstands.seq]
          rfl
        · exact hstream.trans hstands.stream

theorem Selected.timer {strap : BitVec 8} {l : Loader} {v : BitVec 16} {wd : Width} (h : Selected strap l a t c v wd) :
    (t.chan c).seq.timer = a.seq.timer := by
  obtain ⟨hnone, hsome⟩ := h
  cases hdec : decodeIdentity ((l.aliasFor c).getD v) wd with
  | none =>
    rw [(hnone hdec).1]
    rfl
  | some g =>
    obtain ⟨hskip, htest⟩ := hsome g hdec
    cases h : (strapSlotCode strap != 0 && !l.skips c) with
    | false =>
      rw [(hskip h).1]
      rfl
    | true =>
      obtain ⟨h, -⟩ | ⟨h, -⟩ := htest h
      · rw [h, (granted_record _).1]
        rfl
      · rw [h]
        rfl

/-- A record brings no channel to a selection. -/
theorem KeepsRecord.not_waiting (h : KeepsRecord a b) (ha : a.seq.state = .selecting → ∀ v wd, ¬a.Known v wd) :
    b.seq.state = .selecting → ∀ v wd, ¬b.Known v wd := by
  intro hx v wd
  obtain ⟨-, -, -, -, -, -, hseq, hopens, -⟩ := h
  obtain ⟨hsame, -⟩ | ⟨-, hopened, -⟩ := hopens
  · have := ha (hsame ▸ hx) v wd
    unfold Channel.Known at this ⊢
    rwa [hseq]
  · exact absurd (hopened.symm.trans hx) nofun

/-- No channel waits for its selection once its budget has expired. -/
theorem atExpiry_not_waiting (strap : BitVec 8) (ch : Channel) :
    (ch.atExpiry strap).seq.state = .selecting → ∀ v wd, ¬(ch.atExpiry strap).Known v wd := by
  unfold Channel.atExpiry
  split
  next => exact nofun
  next => exact nofun
  next =>
    by_cases hknown : ∃ v wd, ch.expired.Known v wd
    · obtain ⟨v, wd, hknown⟩ := hknown
      cases hdec : decodeIdentity v wd with
      | none =>
        rw [unread_of_none hknown hdec]
        exact nofun
      | some g =>
        rw [unread_of_some hknown hdec]
        show (if strapPublish strap then SeqState.done else .opened) = .selecting → _
        split
        · exact nofun
        · exact nofun
    · have hunknown (v : BitVec 16) (wd : Width) : ¬ch.expired.Known v wd := fun h => hknown ⟨v, wd, h⟩
      rw [unread_of_unknown hunknown]
      exact fun _ => hunknown
  next h => exact fun hx => absurd hx h

/-! ### The end of a load -/

/-- The stages of a load's end: the budgets have settled in `v`, the expiries taken first have been delivered in `u`, the
waiting channels have selected in `w`, and the change is settled in `t`. -/
structure Load (s v u w t : State) (x : LoaderState) (k : Kept) (expired l : List Chan) : Prop where
  loaded : v = { s with loader := s.loader.finish x k, shadow := { s.shadow with cap := k.cap }, chans := v.chans }
  timers : ∀ d, v.chan d = (s.chan d).timed (timerSettled (budgetDuration s.strap x k) (s.chan d).seq.timer)
  expiries : AfterExpiries v u expired
  selections : AfterSelections u w l
  settled : Bystander w t
  all : ∀ d, d ∈ l

section
variable {v : State} {x : LoaderState} {k : Kept} {expired l : List Chan}

theorem endLoad_load (s : State) (x : LoaderState) (k : Kept) (expired order : List Chan)
    (hx : ∀ c ∈ expired, s.seqState c ∉ [SeqState.queued, .testing, .analysing]) :
    ∃ v u w, Load s v u w (s.endLoad x k expired order) x k expired (order ++ allChans) := by
  obtain ⟨s', hs'⟩ : ∃ s' : State, s' = { s with loader := s.loader.finish x k, shadow := { s.shadow with cap := k.cap } } :=
    ⟨_, rfl⟩
  obtain ⟨hframe, htimers⟩ := settleBudgets_eq s'
  have hload : s.endLoad x k expired order = ((order ++ allChans).foldl (fun y c => y.selectIfWaiting c)
      (expired.foldl (fun y c => y.deliverExpiry c) s'.settleBudgets)).settle := by rw [hs']; rfl
  rw [hload]
  refine ⟨_, _, _, ?_, fun d => ?_, afterExpiries_foldl expired fun c hc => ?_, afterSelections_foldl _ _,
    bystander_settle _, fun d => List.mem_append_right _ (mem_allChans d)⟩
  · refine hframe.trans ?_
    conv_lhs => rw [hs']
    rw [hs']
  · rw [htimers, hs']
    rfl
  · rw [State.seqState, htimers, hs']
    exact hx c hc

theorem Load.shared (h : Load s v u w t x k expired l) : KeepsShared v t :=
  h.expiries.shared.trans (h.selections.shared.trans h.settled.1)

theorem Load.due_iff (h : Load s v u w t x k expired l) : ExpiresAtLoad s x k expired c ↔ v.Due expired c := by
  unfold ExpiresAtLoad State.Due
  rw [h.timers]
  rfl

theorem Load.strap (h : Load s v u w t x k expired l) : v.strap = s.strap := by rw [h.loaded]

/-- A channel that expired is as the expiry left it. -/
theorem Load.expired_record (h : Load s v u w t x k expired l) (hd : v.Due expired c) :
    ∃ a, KeepsRecord (v.chan c) a ∧ KeepsRecord (a.atExpiry s.strap) (t.chan c) ∧
      (a.FaultsAtExpiry → t.board.fault = true) := by
  obtain ⟨a, ha, hau, haf⟩ := h.expiries.due c hd
  obtain ⟨-, -, hfault, hrecord⟩ := h.settled
  have hw := h.selections.rest c fun _ => hau.not_waiting (atExpiry_not_waiting _ a)
  rw [h.strap] at hau
  exact ⟨a, ha, hau.trans (hw ▸ hrecord c), fun hf => hfault.trans (h.selections.fault (haf hf))⟩

/-- A channel that neither expired nor waited stands. -/
theorem Load.rest_record (h : Load s v u w t x k expired l) (hd : ¬v.Due expired c)
    (hc : s.seqState c = .selecting → ∀ i wd, ¬(s.chan c).Known i wd) : KeepsRecord (v.chan c) (t.chan c) := by
  have hvu := h.expiries.rest c hd
  obtain ⟨-, -, -, hrecord⟩ := h.settled
  have hw := h.selections.rest c fun _ => hvu.not_waiting (by rw [h.timers]; exact hc)
  exact hvu.trans (hw ▸ hrecord c)

/-- A channel that waited, and did not expire, has selected. -/
theorem Load.selected (h : Load s v u w t x k expired l) (hd : ¬v.Due expired c) (hx : s.seqState c = .selecting)
    {i : BitVec 16} {wd : Width} (hknown : (s.chan c).Known i wd) :
    Selected s.strap t.loader (u.chan c) w c i wd := by
  have hvu := h.expiries.rest c hd
  rw [h.timers] at hvu
  obtain ⟨ds, hu, -⟩ := hvu.ds_of_timed (by rw [show (s.chan c).seq.state = .selecting from hx]; exact nofun)
  obtain ⟨-, hstrap, -⟩ := h.expiries.shared
  obtain ⟨-, -, -, hloader, -⟩ := h.selections.shared.trans h.settled.1
  rw [hloader, ← h.strap, ← hstrap]
  refine h.selections.chosen c (h.all c) ?_ i wd ?_
  · rw [State.seqState, hu]
    exact hx
  · rw [hu]
    exact hknown

/-- The timers at the load's end (R115, R116). -/
theorem Load.timer (h : Load s v u w t x k expired l) (c : Chan) :
    (v.Due expired c → (t.chan c).seq.timer = .expired) ∧
    (¬v.Due expired c → (t.chan c).seq.timer = timerSettled (budgetDuration s.strap x k) (s.chan c).seq.timer) := by
  have hv : (v.chan c).seq.timer = timerSettled (budgetDuration s.strap x k) (s.chan c).seq.timer := by
    rw [h.timers]
    rfl
  refine ⟨fun hd => ?_, fun hd => ?_⟩
  · obtain ⟨a, -, hat, -⟩ := h.expired_record hd
    exact hat.timer.trans (atExpiry_timer _ a)
  · by_cases hwait : s.seqState c = .selecting ∧ ∃ i wd, (s.chan c).Known i wd
    · obtain ⟨hx, i, wd, hknown⟩ := hwait
      obtain ⟨-, -, -, hrecord⟩ := h.settled
      calc (t.chan c).seq.timer = (w.chan c).seq.timer := (hrecord c).timer
        _ = (u.chan c).seq.timer := (h.selected hd hx hknown).timer
        _ = (v.chan c).seq.timer := (h.expiries.rest c hd).timer
        _ = _ := hv
    · exact (h.rest_record hd fun hx i wd hknown => hwait ⟨hx, i, wd, hknown⟩).timer.trans hv

/-- POWERING and IDENTIFYING fail at an expiry (R117). -/
theorem Load.failed (h : Load s v u w t x k expired l) (hd : v.Due expired c)
    (hx : s.seqState c = .powering ∨ s.seqState c = .identifying) :
    FailedWith t c .notReady ∧ KeepsRepairs (s.chan c) (t.chan c) ∧ (t.chan c).port = (s.chan c).port ∧
    (t.chan c).seq = { (s.chan c).seq with
      timer := .expired, state := .failed, result := .failed, reason := .notReady,
      supplyWait := decide (s.seqState c = .identifying) && (s.chan c).seq.supplyWait,
      ident := if s.seqState c = .identifying then .idle else (s.chan c).seq.ident } := by
  obtain ⟨a, ha, hat, hfault⟩ := h.expired_record hd
  rw [h.timers] at ha
  unfold State.seqState at hx ⊢
  have hne : (s.chan c).seq.state ≠ .done := by
    rintro hdone
    simp [hdone] at hx
  obtain ⟨ds, rfl, -⟩ := ha.ds_of_timed hne
  have hfault := hfault (hx.imp_right .inl)
  unfold Channel.atExpiry at hat
  obtain hx | hx := hx
  all_goals
    simp only [Channel.timed, hx] at hat
    have hstands := hat.stands (hat.state_eq nofun)
    refine ⟨?_, hstands.repairs, hstands.port, hstands.seq.trans ?_⟩
    · rw [FailedWith, hstands.seq]
      exact ⟨rfl, rfl, rfl, hfault⟩
    · rw [hx]
      rfl

/-- The other channels stand but for their timers. -/
theorem Load.stands (h : Load s v u w t x k expired l) (hx : s.seqState c ≠ .selecting)
    (hd : ¬(v.Due expired c ∧ (s.seqState c = .powering ∨ s.seqState c = .identifying))) :
    KeepsRecord ((s.chan c).timed (t.chan c).seq.timer) (t.chan c) := by
  by_cases hdue : v.Due expired c
  · obtain ⟨a, ha, hat, -⟩ := h.expired_record hdue
    rw [h.timers] at ha
    have hexpired : KeepsRecord ((s.chan c).timed .expired) a.expired := ha.timed .expired
    have ha' : a.atExpiry s.strap = a.expired := by
      obtain ⟨-, -, -, -, -, -, -, hopens, -⟩ := ha
      have hstate (q : SeqState) (hq : q ≠ .opened) (ha : a.seq.state = q) : s.seqState c = q := by
        obtain ⟨hsame, -⟩ | ⟨-, hopened, -⟩ := hopens
        · exact hsame.symm.trans ha
        · exact absurd (ha.symm.trans hopened) hq
      unfold Channel.atExpiry
      split
      next h => exact absurd ⟨hdue, .inl (hstate _ nofun h)⟩ hd
      next h => exact absurd ⟨hdue, .inr (hstate _ nofun h)⟩ hd
      next h => exact absurd (hstate .selecting nofun h) hx
      next => rfl
    exact (hexpired.trans (ha' ▸ hat)).of_timed
  · have := h.rest_record hdue fun h => absurd h hx
    rw [h.timers] at this
    exact this.of_timed

theorem Load.ended (h : Load s v u w t x k expired l) : LoadEnded s t x k expired := by
  obtain ⟨hreset, hstrap, hshadow, hloader, hpending, -⟩ := h.shared
  obtain ⟨-, harb, hfault, hrecord⟩ := h.settled
  rw [h.loaded] at hreset hstrap hshadow hloader hpending
  unfold LoadEnded
  simp only [h.due_iff]
  rw [hloader, hshadow]
  refine ⟨rfl, rfl, rfl, rfl, rfl, fun hx => if_pos hx, rfl, rfl, hstrap, hreset, hpending, h.timer,
    fun c i wd hx hi hwd => ⟨fun hd => ?_, fun hd => ?_⟩, fun c => h.failed, fun c => h.stands⟩
  · obtain ⟨a, ha, hat, hf⟩ := h.expired_record hd
    rw [h.timers] at ha
    obtain ⟨ds, rfl, -⟩ := ha.ds_of_timed (by rw [show (s.chan c).seq.state = .selecting from hx]; exact nofun)
    exact selectedUnread_of_record hx ⟨hi, hwd⟩ ha hat (hf (.inr (.inr ⟨hx, i, wd, hi, hwd⟩)))
  · have hvu := h.expiries.rest c hd
    rw [h.timers] at hvu
    exact selectedByLoad_of_selected hx hvu (h.selected hd hx ⟨hi, hwd⟩) (hrecord c) harb hfault

end

/-- A load's end is as stated whatever ended it (R94, R115, R121, R134). -/
theorem endLoad_loadEnded (s : State) (x : LoaderState) (k : Kept) (expired order : List Chan)
    (hx : ∀ c ∈ expired, s.seqState c ∉ [SeqState.queued, .testing, .analysing]) :
    LoadEnded s (s.endLoad x k expired order) x k expired := by
  obtain ⟨v, u, w, hload⟩ := endLoad_load s x k expired order hx
  exact hload.ended

/-- Settles O16. -/
theorem loadEnds : Obligations.LoadEnds := by
  refine ⟨rfl, fun s b order hl => ⟨?_, fun hs hsum => ?_, fun hlimit => ?_, fun hs expired hx => ?_⟩⟩
  · intro image hs
    have hbyte : exec (.descriptorByte b order) s =
        .next ((s.updLoader fun l => { l with buffer := l.buffer ++ [b] }).testHeader order) :=
      congrArg Host.Outcome.next (if_pos ((loadingAt_iff s _).mpr ⟨hl, hs⟩))
    refine ⟨fun h2 hsig => ⟨_, hbyte, ?_⟩, fun h4 hbad => ⟨_, hbyte, ?_⟩⟩
    · have hgood : signatureGood image = false := by
        rw [Bool.eq_false_iff]
        exact mt (signatureGood_iff h2).mp hsig
      rw [State.testHeader, if_pos ⟨h2, hgood⟩]
      exact endLoad_loadEnded (s.updLoader _) .absent Kept.nothing [] order nofun
    · rw [State.testHeader, if_neg fun h => absurd (h4.symm.trans h.1) (by decide), if_pos ⟨h4, hbad⟩]
      exact endLoad_loadEnded (s.updLoader _) .bad Kept.nothing [] order nofun
  · refine ⟨_, congrArg Host.Outcome.next ((if_pos ((loadingAt_iff s _).mpr ⟨hl, hs⟩)).trans
      (if_neg (mt (checkGood_iff _).mp hsum))), ?_⟩
    exact endLoad_loadEnded s .bad Kept.nothing [] order nofun
  · exact ⟨_, congrArg Host.Outcome.next (if_pos ⟨hl, hlimit⟩), endLoad_loadEnded s .late Kept.nothing [] order nofun⟩
  · exact ⟨_, congrArg Host.Outcome.next (if_pos ((loadingAt_iff s _).mpr ⟨hl, hs⟩)),
      endLoad_loadEnded s _ _ expired order hx⟩

end

end Sys2Proof.Machine
end
